-- ==== Sys2Proof/Word.lean ====
section
/-! DEFINITION. The two words the block handles as bits: the byte of a frame and the 32-bit register of the CRC engine
(00_scope.md R12, R13; 10_state.md R52). Host operands are mathematical integers (R12) and are `Int`. -/

namespace Sys2Proof

/-- One byte of a frame, 0..255 (R12). -/
abbrev Byte := BitVec 8

/-- A 32-bit word: `crc_reg` and the CRC trailer (R52, R174). -/
abbrev Word32 := BitVec 32

end Sys2Proof
end

