-- ==== Sys2Proof/Syntax.lean ====
section
/-! DEFINITION. The syntax: values and operands (30_encoding.md R162), the thirteen Commands (R140), the ten module kinds
(R156), the 27 host-operation names (R161), `Instr` with one constructor per row of the opcode table, and the records in
which instructions arrive at the block's ports. -/

namespace Sys2Proof

/-- A value of a descriptor, or a value operand: one integer, or the tuple of a composite (10_state.md R42, 30_encoding.md
R162). An `f32` field is its 32-bit pattern (R43). -/
inductive Value where
  | scalar (v : Int)
  | tuple (fields : List Int)
deriving DecidableEq, Repr

/-- One operand of a request, of one of the types of 30_encoding.md R162. -/
inductive Operand where
  | int (v : Int)
  | bool (b : Bool)
  | value (v : Value)
  | ints (vs : List Int)
  | pairs (ps : List (Int × Value))
deriving DecidableEq, Repr

/-- What the host port carries: `{hop, operands}` (30_encoding.md R161). -/
structure HostReq where
  hop : Byte
  operands : List Operand
deriving DecidableEq, Repr

/-- A request at one of the block's internal ports, which no host operation exposes (00_scope.md R6, 40_crc.md R181): a
Command with its operands at the codec, its frame bytes F[0..4] written as the opcode table writes them (R110, R200); an
operation of the CRC engine's port with its byte operand (40_crc.md R182). -/
inductive InternalReq where
  | codec (head : List Byte) (operands : List Operand)
  | crcPort (code : BitVec 2) (operand : Byte)
deriving DecidableEq, Repr

/-- A request at one of the block's ports: a host operation at the host port (R161), or one at an internal port. -/
inductive Request where
  | host (req : HostReq)
  | internal (req : InternalReq)
deriving DecidableEq, Repr

/-- The thirteen Commands (30_encoding.md R140). -/
inductive Command where
  | ping | write | read | eepromWrite | reboot | hardReset | tune | resetEnc | moduleScan | blJump | syncWrite
  | writeAck | eepromWriteAck
deriving DecidableEq, Repr

/-- The ten module kinds, in the order of 30_encoding.md R156. -/
inductive ModuleKind where
  | button | light | buzzer | joystick | distance | qtr | servo | potentiometer | rgb | imu
deriving DecidableEq, Repr

/-- The 27 host operations of 30_encoding.md R161, without their operands. -/
inductive HostOp where
  | attach | detach | setVariables | getVariables | setVariablesSync | ping | reboot | hardReset | eepromWrite | tune
  | resetEncoder | enterBootloader | scan | scanModules | getDriverInfo | updateMasterBaudrate | updateDriverBaudrate
  | getButton | getLight | setBuzzer | getJoystick | getDistance | getQtr | setServo | getPotentiometer | setRgb | getImu
deriving DecidableEq, Repr

/-- The instructions: one constructor per row of spec/opcode_table.json. The host operations take the operands of
30_encoding.md R161; the Commands (`frame…`) those of the codec's encode functions (41_codec.md R204, R207, R209, R211),
MODULE_SCAN with the caller's choice of issuance (R206: `second` false is the warm-up, true the real scan); the CRC port
operations those of 40_crc.md R182. -/
inductive Instr where
  | attach (id family : Int)
  | detach (id : Int)
  | setVariables (id : Int) (pairs : List (Int × Value)) (ack : Bool)
  | getVariables (id : Int) (indices : List Int)
  | setVariablesSync (index : Int) (groups : List (Int × Value))
  | ping (id : Int)
  | reboot (id : Int)
  | hardReset (id : Int)
  | eepromWrite (id : Int) (ack : Bool)
  | tune (id : Int)
  | resetEncoder (id : Int)
  | enterBootloader (id : Int)
  | scan
  | scanModules (id : Int)
  | getDriverInfo (id : Int)
  | updateMasterBaudrate (baud : Int)
  | updateDriverBaudrate (id baud : Int)
  | getButton (id m : Int)
  | getLight (id m : Int)
  | setBuzzer (id m : Int) (v : Value)
  | getJoystick (id m : Int)
  | getDistance (id m : Int)
  | getQtr (id m : Int)
  | setServo (id m v : Int)
  | getPotentiometer (id m : Int)
  | setRgb (id m r g b : Int)
  | getImu (id m : Int)
  | framePing (t : Byte)
  | frameWrite (t : Byte) (pairs : List (Int × Value))
  | frameRead (t : Byte) (indices : List Int)
  | frameEepromWrite (t : Byte)
  | frameReboot (t : Byte)
  | frameHardReset (t : Byte)
  | frameTune (t : Byte)
  | frameResetEnc (t : Byte)
  | frameModuleScan (t : Byte) (second : Bool)
  | frameBlJump (t : Byte)
  | frameSyncWrite (index : Int) (groups : List (Int × Value))
  | frameWriteAck (t : Byte) (pairs : List (Int × Value))
  | frameEepromWriteAck (t : Byte)
  | crcInit
  | crcFeed (b : Byte)
  | crcRead
deriving DecidableEq, Repr

end Sys2Proof
end

