-- ==== Sys2Proof/Config.lean ====
section
/-! DEFINITION. The configuration: the types of the parameters the sources leave open (00_scope.md R11), which the model
takes as an argument, and the one free value, what the bus agent answers. The configuration is fixed when the block is built
and is never written (10_state.md R30, R31). The well-formedness of a configuration is `Params.wf` in Machine/RegMap.lean;
the test profile TP is `tp` in Machine/Profile.lean. -/

namespace Sys2Proof

/-- The primitive field types (10_state.md R32). -/
inductive Prim where
  | u8 | i8 | u16 | i16 | u32 | i32 | f32
deriving DecidableEq, Repr

/-- A descriptor of the register map (10_state.md R33). The name is documentation: rules name an index through
`RegMap`'s named fields or its fixed number (R16, R36). -/
structure Descriptor where
  index : Nat
  name : String
  fmt : List Prim
  isMutable : Bool
  resetValue : Value
deriving DecidableEq, Repr

/-- REGMAP (10_state.md R31 to R39): its descriptors, and the numbers of the indices that rules name and DOC does not
number (R37, R38). -/
structure RegMap where
  descriptors : List Descriptor
  hardwareVersion : Nat
  softwareVersion : Nat
  baudRate : Nat
  crcValue : Nat
deriving DecidableEq, Repr

/-- CMD (30_encoding.md R141): the byte of each of the thirteen Commands. -/
structure CommandMap where
  ping : Byte
  write : Byte
  read : Byte
  eepromWrite : Byte
  reboot : Byte
  hardReset : Byte
  tune : Byte
  resetEnc : Byte
  moduleScan : Byte
  blJump : Byte
  syncWrite : Byte
  writeAck : Byte
  eepromWriteAck : Byte
deriving DecidableEq, Repr

/-- BASE (10_state.md R39, 30_encoding.md R156): the first Index of each module kind. -/
structure Banks where
  button : Nat
  light : Nat
  buzzer : Nat
  joystick : Nat
  distance : Nat
  qtr : Nat
  servo : Nat
  potentiometer : Nat
  rgb : Nat
  imu : Nat
deriving DecidableEq, Repr

/-- P_QTR_ORDER (43_peripherals.md R337): which bit of the QTR byte is element 0 of the result. -/
inductive QtrOrder where
  | lsbFirst | msbFirst
deriving DecidableEq, Repr

/-- Which byte of a version triple `(b0, b1, b2)` (43_peripherals.md R345). -/
inductive VersionByte where
  | b0 | b1 | b2
deriving DecidableEq, Repr

/-- The named parameters of 00_scope.md R11. The delays are in seconds and no rule reads them (R54, R386). -/
structure Params where
  regmap : RegMap
  cmd : CommandMap
  bank : Banks
  enforceMutable : Bool
  qtrOrder : QtrOrder
  versionOrder : List VersionByte
  baudInit : Nat
  sentinelFamily : Byte
  scanFamily : Byte
  timeoutNormal : Rat
  timeoutScan : Rat
  warmup : Rat
deriving DecidableEq, Repr

/-- FREE VALUE. What the bus agent has for the k-th read it is asked for when the state lists no answer: any byte list, of
which a read of n bytes takes at most n (20_memory.md R96, D32). It has no body, so no proof knows it. -/
opaque Config.busAnswer : Nat → List Byte

end Sys2Proof
end

