-- ==== Sys2Proof/Machine/Constants.lean ====
section
/-! DEFINITION. The fixed constants of 00_scope.md R10 and the fixed indices of 10_state.md R36. -/

namespace Sys2Proof

/-- `HDR_BYTE` (R10). -/
def hdrByte : Byte := 0x55#8
/-- `HDR_LEN` (R10): Header, DeviceID, DeviceFamily, PackageSize, Command, Status. -/
def hdrLen : Nat := 6
/-- `CRC_LEN` (R10). -/
def crcLen : Nat := 4
/-- `MIN_FRAME` (R10), the length of a header-only frame. -/
def minFrame : Nat := 10
/-- The longest frame: PackageSize is one byte (41_codec.md R215). -/
def maxFrame : Nat := 255
/-- `N_SLOTS` (R10). -/
def nSlots : Nat := 256
/-- `BCAST` (R10), the broadcast id. -/
def bcast : Nat := 255
/-- `CRC_POLY` (R10). -/
def crcPoly : Word32 := 0x04C11DB7#32
/-- `CRC_INIT` (R10). -/
def crcInitValue : Word32 := 0xFFFFFFFF#32
/-- `BAUD_MIN` (R10). -/
def baudMin : Nat := 3053
/-- `BAUD_MAX` (R10). -/
def baudMax : Nat := 12500000
/-- `MODSCAN_RESP` (R10). -/
def modscanResp : Nat := 18

/-- The header indices (10_state.md R36). -/
def idxDeviceID : Nat := 1
/-- The header indices (10_state.md R36). -/
def idxDeviceFamily : Nat := 2
/-- The header indices (10_state.md R36). -/
def idxStatus : Nat := 5

/-- `SETTLE` (R10, 10_state.md R49): `(10 / baud) * 3` seconds. -/
def settleOf (baud : Nat) : Rat := (10 / (baud : Rat)) * 3

end Sys2Proof
end

