-- ==== Sys2Proof/Machine/Bytes.lean ====
section
/-! DEFINITION. Little-endian and two's-complement conversion (00_scope.md R14). -/

namespace Sys2Proof

/-- `le_bytes_n(v)` (R14): the n bytes of v, least significant first. -/
def leBytes : Nat → Nat → List Byte
  | 0, _ => []
  | n + 1, v => BitVec.ofNat 8 v :: leBytes n (v / 256)

/-- `le_value(L)` (R14): the sum of `L[i] * 256^i`. -/
def leValue : List Byte → Nat
  | [] => 0
  | b :: rest => b.toNat + 256 * leValue rest

/-- `tc_n(v)` (R14): `v mod 2^(8n)`, for n bytes. -/
def tc (n : Nat) (v : Int) : Nat := (v % (2 ^ (8 * n) : Nat)).toNat

/-- `untc_n(u)` (R14): `u - 2^(8n)` where `u >= 2^(8n-1)`, else u. -/
def untc (n : Nat) (u : Nat) : Int :=
  if 2 ^ (8 * n) ≤ 2 * u then (u : Int) - (2 ^ (8 * n) : Nat) else u

end Sys2Proof
end

