-- ==== Sys2Proof/Machine/Crc.lean ====
section
/-! DEFINITION. The CRC engine's functions (40_crc.md): the shift step, the byte step, the checksum of a byte list, sealing
and checking. The register itself is `State.crcReg`. -/

namespace Sys2Proof

/-- One shift of the register (R172): left by one, with the polynomial XORed in where bit 31 was set. -/
def crcShift (r : Word32) : Word32 := if r.getLsbD 31 then (r <<< 1) ^^^ crcPoly else r <<< 1

/-- The shift step n times. -/
def crcShiftN : Nat → Word32 → Word32
  | 0, r => r
  | n + 1, r => crcShiftN n (crcShift r)

/-- `CRC_FEED(b)` on the register (R172): b enters at bits 31..24, then eight shifts. -/
def crcFeedByte (r : Word32) (b : Byte) : Word32 := crcShiftN 8 (r ^^^ (b.setWidth 32 <<< 24))

/-- The register after feeding a byte list in order (R174). -/
def crcFeedAll : Word32 → List Byte → Word32
  | r, [] => r
  | r, b :: rest => crcFeedAll (crcFeedByte r b) rest

/-- `crc32(L)` (R174). -/
def crc32 (L : List Byte) : Word32 := crcFeedAll crcInitValue L

/-- The table entry `T[n]` (R175): the register after feeding n from 0. -/
def crcTable (n : Byte) : Word32 := crcFeedByte 0#32 n

/-- The byte step in table form (R175). -/
def crcFeedTable (r : Word32) (b : Byte) : Word32 := (r <<< 8) ^^^ crcTable ((r >>> 24).setWidth 8 ^^^ b)

/-- `seal(B)` (R177). -/
def sealFrame (B : List Byte) : List Byte := B ++ leBytes 4 (crc32 B).toNat

/-- The bytes a frame's CRC covers (R176): all but the last four. -/
def crcCovered (F : List Byte) : List Byte := F.take (F.length - 4)

/-- `crc_ok(F)` (R178). A list of fewer than four bytes is never checked; it is not ok. -/
def crcOk (F : List Byte) : Bool :=
  decide (4 ≤ F.length) && (crc32 (crcCovered F)).toNat == leValue (F.drop (F.length - 4))

end Sys2Proof
end

