-- ==== Sys2Proof/Machine/RegMap.lean ====
section
/-! DEFINITION. Reading the configuration: widths and domains of the primitive types, lookup in REGMAP, shapes of values,
the Command bytes, the module banks, and the well-formedness of a configuration (10_state.md R32 to R43, 30_encoding.md
R141, R156). -/

namespace Sys2Proof

/-- The byte width of a primitive type (R32). -/
def Prim.width : Prim → Nat
  | .u8 | .i8 => 1
  | .u16 | .i16 => 2
  | .u32 | .i32 | .f32 => 4

/-- Whether a primitive type is signed (R43). -/
def Prim.signed : Prim → Bool
  | .i8 | .i16 | .i32 => true
  | _ => false

/-- The domain of a primitive type (R43): unsigned `0 .. 2^(8n)-1`, signed `-2^(8n-1) .. 2^(8n-1)-1`; `f32` is a 32-bit
pattern. -/
def Prim.inDomain (t : Prim) (v : Int) : Bool :=
  if t.signed then decide (-(2 ^ (8 * t.width - 1) : Nat) ≤ v) && decide (v < (2 ^ (8 * t.width - 1) : Nat))
  else decide (0 ≤ v) && decide (v < (2 ^ (8 * t.width) : Nat))

/-- `width` of a wire format (R34): the sum of the widths of its fields. -/
def fmtWidth : List Prim → Nat
  | [] => 0
  | t :: ts => t.width + fmtWidth ts

/-- `width(idx)` (R34). -/
def Descriptor.width (d : Descriptor) : Nat := fmtWidth d.fmt

/-- The shape rule (R42, 30_encoding.md R116): a scalar for one field, a tuple of exactly k fields for k ≥ 2. -/
def shapeOk : List Prim → Value → Bool
  | [_], .scalar _ => true
  | _ :: _ :: ts, .tuple vs => vs.length == ts.length + 2
  | _, _ => false

/-- Every field of a value is in the domain of its type (R43). -/
def fieldsInDomain : List Prim → List Int → Bool
  | t :: ts, v :: vs => t.inDomain v && fieldsInDomain ts vs
  | _, _ => true

/-- The fields of a value, in order (R42). -/
def Value.fields : Value → List Int
  | .scalar v => [v]
  | .tuple vs => vs

/-- A value of the shape and domains of a format (R42, R43): what a descriptor of that format can hold. -/
def fits (fmt : List Prim) (v : Value) : Bool := shapeOk fmt v && fieldsInDomain fmt v.fields

/-- The descriptor of an index, none where REGMAP does not define it (R33). -/
def RegMap.find (rm : RegMap) (idx : Nat) : Option Descriptor := rm.descriptors.find? (fun d => d.index == idx)

/-- The descriptor an integer operand names: a negative index names none (R33, R162). -/
def RegMap.findInt (rm : RegMap) : Int → Option Descriptor
  | .ofNat n => rm.find n
  | .negSucc _ => none

/-- `width(i)` of an index operand, 0 where it is unknown. -/
def RegMap.widthInt (rm : RegMap) (i : Int) : Nat :=
  match rm.findInt i with
  | some d => d.width
  | none => 0

/-- `CMD[c]` (30_encoding.md R141). -/
def CommandMap.byte (cm : CommandMap) : Command → Byte
  | .ping => cm.ping
  | .write => cm.write
  | .read => cm.read
  | .eepromWrite => cm.eepromWrite
  | .reboot => cm.reboot
  | .hardReset => cm.hardReset
  | .tune => cm.tune
  | .resetEnc => cm.resetEnc
  | .moduleScan => cm.moduleScan
  | .blJump => cm.blJump
  | .syncWrite => cm.syncWrite
  | .writeAck => cm.writeAck
  | .eepromWriteAck => cm.eepromWriteAck

/-- The thirteen Commands (30_encoding.md R140). -/
def allCommands : List Command :=
  [.ping, .write, .read, .eepromWrite, .reboot, .hardReset, .tune, .resetEnc, .moduleScan, .blJump, .syncWrite,
   .writeAck, .eepromWriteAck]

/-- The Command a byte selects, none where it is no Command's (30_encoding.md R141). -/
def CommandMap.command (cm : CommandMap) (b : Byte) : Option Command := allCommands.find? (fun c => cm.byte c == b)

/-- The ten kinds in order k = 0..9 (30_encoding.md R156). -/
def allKinds : List ModuleKind :=
  [.button, .light, .buzzer, .joystick, .distance, .qtr, .servo, .potentiometer, .rgb, .imu]

/-- `BASE[k]` (30_encoding.md R156). -/
def Banks.base (bk : Banks) : ModuleKind → Nat
  | .button => bk.button
  | .light => bk.light
  | .buzzer => bk.buzzer
  | .joystick => bk.joystick
  | .distance => bk.distance
  | .qtr => bk.qtr
  | .servo => bk.servo
  | .potentiometer => bk.potentiometer
  | .rgb => bk.rgb
  | .imu => bk.imu

/-- The five Indices of a kind (10_state.md R39). -/
def Banks.slots (bk : Banks) (k : ModuleKind) : List Nat :=
  [bk.base k, bk.base k + 1, bk.base k + 2, bk.base k + 3, bk.base k + 4]

/-- No element occurs twice. -/
def distinct {α : Type} [BEq α] : List α → Bool
  | [] => true
  | a :: rest => !rest.contains a && distinct rest

/-- The format of a defined index satisfies a condition; false where the index is not defined. -/
def RegMap.fmtIs (rm : RegMap) (idx : Nat) (ok : List Prim → Bool) : Bool :=
  match rm.find idx with
  | some d => ok d.fmt
  | none => false

/-- A 4-byte integer format (10_state.md R38). -/
def isWordFmt (fmt : List Prim) : Bool := fmt == [.u32] || fmt == [.i32]

/-- A one-byte format (10_state.md R38). -/
def isByteFmt (fmt : List Prim) : Bool := fmt == [.u8] || fmt == [.i8]

/-- A composite format: more than one field (00_scope.md R17, 10_state.md R38). -/
def isComposite (fmt : List Prim) : Bool := decide (2 ≤ fmt.length)

/-- REGMAP is well formed: R33 (indices 0..255, one descriptor per index, formats not empty, reset values of the format),
R36 (the six header indices, u8), R37 (CRCValue u32 at the largest index), R38 (the formats DOC fixes). -/
def RegMap.wf (rm : RegMap) (bk : Banks) : Bool :=
  rm.descriptors.all (fun d => decide (d.index ≤ 255) && !d.fmt.isEmpty && fits d.fmt d.resetValue)
  && (distinct (rm.descriptors.map (·.index))
  && ([0, 1, 2, 3, 4, 5].all (fun i => rm.fmtIs i (· == [.u8]))
  && (rm.fmtIs rm.crcValue (· == [.u32])
  && (rm.descriptors.all (fun d => decide (d.index ≤ rm.crcValue))
  && (rm.fmtIs rm.hardwareVersion isWordFmt
  && (rm.fmtIs rm.softwareVersion isWordFmt
  && (rm.fmtIs rm.baudRate isWordFmt
  && ((bk.slots .rgb).all (fun i => rm.fmtIs i isWordFmt)
  && ((bk.slots .qtr).all (fun i => rm.fmtIs i isByteFmt)
  && ((bk.slots .joystick).all (fun i => rm.fmtIs i isComposite)
  && (bk.slots .imu).all (fun i => rm.fmtIs i isComposite)))))))))))

/-- BASE is well formed (R39, R40): every bank index is defined, and the bank ranges overlap neither each other nor the
header indices nor the other named indices. -/
def Banks.wf (bk : Banks) (rm : RegMap) : Bool :=
  (allKinds.flatMap bk.slots).all (fun i => (rm.find i).isSome)
  && distinct ([0, 1, 2, 3, 4, 5, rm.hardwareVersion, rm.softwareVersion, rm.baudRate, rm.crcValue]
      ++ allKinds.flatMap bk.slots)

/-- A configuration is well formed: REGMAP and BASE (R33 to R40), CMD injective (30_encoding.md R141), and the constraints
of 00_scope.md R11 on the other parameters. -/
def Params.wf (p : Params) : Bool :=
  p.regmap.wf p.bank
  && (p.bank.wf p.regmap
  && (distinct (allCommands.map p.cmd.byte)
  && (decide (baudMin ≤ p.baudInit)
  && (decide (p.baudInit ≤ baudMax)
  && (distinct p.versionOrder
  && (p.versionOrder.length == 3
  && (decide (p.timeoutScan < p.timeoutNormal)
  && decide (1 < p.warmup))))))))

end Sys2Proof
end

