-- ==== Sys2Proof/Machine/Profile.lean ====
section
/-! DEFINITION. The test profile TP (10_state.md R35, 30_encoding.md R160): one well-formed configuration, the one the spec's
test vectors and the opcode table's Command bytes are written in. Its numbers are placeholders, not a device's; no meaning
of an instruction uses it (log 1). -/

namespace Sys2Proof

/-- Five descriptors of one module bank, `<kind>_1 .. <kind>_5`. -/
def tpBank (base : Nat) (name : String) (fmt : List Prim) (isMutable : Bool) (r : Value) : List Descriptor :=
  [⟨base, name ++ "_1", fmt, isMutable, r⟩, ⟨base + 1, name ++ "_2", fmt, isMutable, r⟩,
   ⟨base + 2, name ++ "_3", fmt, isMutable, r⟩, ⟨base + 3, name ++ "_4", fmt, isMutable, r⟩,
   ⟨base + 4, name ++ "_5", fmt, isMutable, r⟩]

/-- The descriptors of TP that no module bank holds (R35). -/
def tpSingles : List Descriptor :=
  [⟨0, "Header", [.u8], false, .scalar 0x55⟩,
   ⟨1, "DeviceID", [.u8], true, .scalar 0⟩,
   ⟨2, "DeviceFamily", [.u8], false, .scalar 0⟩,
   ⟨3, "PackageSize", [.u8], false, .scalar 0⟩,
   ⟨4, "Command", [.u8], false, .scalar 0⟩,
   ⟨5, "Status", [.u8], false, .scalar 0⟩,
   ⟨6, "HardwareVersion", [.u32], false, .scalar 0⟩,
   ⟨7, "SoftwareVersion", [.u32], false, .scalar 0⟩,
   ⟨8, "BaudRate", [.u32], true, .scalar 115200⟩,
   ⟨9, "OperationMode", [.u8], true, .scalar 0⟩,
   ⟨10, "TorqueEnable", [.u8], true, .scalar 0⟩,
   ⟨11, "PositionLimit", [.i32], true, .scalar 0⟩,
   ⟨12, "SetpointPosition", [.f32], true, .scalar 0⟩,
   ⟨13, "PresentPosition", [.f32], false, .scalar 0⟩,
   ⟨14, "PresentVelocity", [.i16], false, .scalar 0⟩,
   ⟨15, "PresentCurrent", [.u16], false, .scalar 0⟩]

/-- The register map of TP (R35). DeviceID's and DeviceFamily's reset values are never read: a fresh mirror holds the slot's
id and the family there (R45). -/
def tpRegMap : RegMap where
  descriptors := tpSingles
    ++ tpBank 16 "Button" [.u8] false (.scalar 0)
    ++ tpBank 21 "Light" [.u8] true (.scalar 0)
    ++ tpBank 26 "Buzzer" [.u32] true (.scalar 0)
    ++ tpBank 31 "Joystick" [.i16, .i16, .u8] false (.tuple [0, 0, 0])
    ++ tpBank 36 "Distance" [.u16] false (.scalar 0)
    ++ tpBank 41 "QTR" [.u8] false (.scalar 0)
    ++ tpBank 46 "Servo" [.u8] true (.scalar 0)
    ++ tpBank 51 "Potentiometer" [.u8] false (.scalar 0)
    ++ tpBank 56 "RGB" [.u32] true (.scalar 0)
    ++ tpBank 61 "IMU" [.f32, .f32] false (.tuple [0, 0])
    ++ [⟨66, "CRCValue", [.u32], false, .scalar 0⟩]
  hardwareVersion := 6
  softwareVersion := 7
  baudRate := 8
  crcValue := 66

/-- The Command bytes of TP (30_encoding.md R160). -/
def tpCmd : CommandMap where
  ping := 0x00#8
  write := 0x01#8
  read := 0x02#8
  eepromWrite := 0x03#8
  reboot := 0x04#8
  hardReset := 0x05#8
  tune := 0x06#8
  resetEnc := 0x07#8
  moduleScan := 0x08#8
  blJump := 0x09#8
  syncWrite := 0x0A#8
  writeAck := 0x81#8
  eepromWriteAck := 0x83#8

/-- The test profile (30_encoding.md R160). TP gives the three delays no value: 2 s, 1 s and 2 s are DESIGN CHOICE (log 2),
and no rule reads them. -/
def tp : Params where
  regmap := tpRegMap
  cmd := tpCmd
  bank := ⟨16, 21, 26, 31, 36, 41, 46, 51, 56, 61⟩
  enforceMutable := false
  qtrOrder := .lsbFirst
  versionOrder := [.b2, .b1, .b0]
  baudInit := 115200
  sentinelFamily := 0x00#8
  scanFamily := 0x00#8
  timeoutNormal := 2
  timeoutScan := 1
  warmup := 2

end Sys2Proof
end

