-- ==== Sys2Proof/Machine/FieldCodec.lean ====
section
/-! DEFINITION. Field and value encoding and decoding (30_encoding.md R114 to R117), the payloads of the request formats
(R121 to R124) and the parse of a reply payload (41_codec.md R232). -/

namespace Sys2Proof

/-- `enc_field(t, v)` (R114), little-endian, two's complement where signed (20_memory.md R84). Defined by the spec for v in
t's domain only; every caller checks that first. -/
def encField (t : Prim) (v : Int) : List Byte := leBytes t.width (tc t.width v)

/-- `dec_field(t, B)` (R115). -/
def decField (t : Prim) (B : List Byte) : Int := if t.signed then untc t.width (leValue B) else leValue B

/-- The fields of a value encoded one after another, without padding (R116, 20_memory.md R87). -/
def encFields : List Prim → List Int → List Byte
  | t :: ts, v :: vs => encField t v ++ encFields ts vs
  | _, _ => []

/-- `enc_value` for a format (R116). -/
def encValue (fmt : List Prim) (v : Value) : List Byte := encFields fmt v.fields

/-- Consecutive fields decoded in order (R117). -/
def decFields : List Prim → List Byte → List Int
  | [], _ => []
  | t :: ts, B => decField t (B.take t.width) :: decFields ts (B.drop t.width)

/-- `dec_value` for a format (R117): a scalar for one field, a tuple otherwise. -/
def decValue : List Prim → List Byte → Value
  | [t], B => .scalar (decField t B)
  | fmt, B => .tuple (decFields fmt B)

/-- An index operand and a value operand that have an encoding: the index is defined and the value is of its shape and
domains (R114, R116, R150). -/
def RegMap.encodable (rm : RegMap) (i : Int) (v : Value) : Bool :=
  match rm.findInt i with
  | some d => fits d.fmt v
  | none => false

/-- `enc_value(i, v)` for an index operand (R116). -/
def RegMap.encValueAt (rm : RegMap) (i : Int) (v : Value) : List Byte :=
  match rm.findInt i with
  | some d => encValue d.fmt v
  | none => []

/-- The payload of F-WRITE (R122): Index byte and value bytes of each pair, in the caller's order. -/
def writePayload (rm : RegMap) : List (Int × Value) → List Byte
  | [] => []
  | (i, v) :: rest => BitVec.ofInt 8 i :: (rm.encValueAt i v ++ writePayload rm rest)

/-- The payload of F-READ (R123): one Index byte per requested register. -/
def readPayload (indices : List Int) : List Byte := indices.map (BitVec.ofInt 8)

/-- The (DeviceID, value) groups of F-SYNC (R124). -/
def syncGroups (rm : RegMap) (i : Int) : List (Int × Value) → List Byte
  | [] => []
  | (d, v) :: rest => BitVec.ofInt 8 d :: (rm.encValueAt i v ++ syncGroups rm i rest)

/-- The payload of F-SYNC (R124): the Index byte, then the groups. -/
def syncPayload (rm : RegMap) (i : Int) (groups : List (Int × Value)) : List Byte :=
  BitVec.ofInt 8 i :: syncGroups rm i groups

/-- `sum(1 + width(i))` over index operands (R122, R127). -/
def sizeOfIndices (rm : RegMap) : List Int → Nat
  | [] => 0
  | i :: rest => (1 + rm.widthInt i) + sizeOfIndices rm rest

/-- The length of a write request, and of its echo: `6 + sum(1 + width) + 4` (R122, R126). -/
def writeLen (rm : RegMap) (pairs : List (Int × Value)) : Nat :=
  hdrLen + sizeOfIndices rm (pairs.map (·.1)) + crcLen

/-- The length of a read request: `6 + k + 4` (R123). -/
def readLen (indices : List Int) : Nat := hdrLen + indices.length + crcLen

/-- The length of the reply to a read: `6 + sum(1 + width) + 4` (R127). -/
def readAckLen (rm : RegMap) (indices : List Int) : Nat := hdrLen + sizeOfIndices rm indices + crcLen

/-- The length of a synchronized write: `6 + 1 + k * (1 + width) + 4` (R124). -/
def syncLen (rm : RegMap) (i : Int) (groups : List (Int × Value)) : Nat :=
  hdrLen + 1 + groups.length * (1 + rm.widthInt i) + crcLen

/-- A write has a frame (R114, R116, R215): every pair has an encoding and the length fits PackageSize. -/
def writeEncodable (rm : RegMap) (pairs : List (Int × Value)) : Bool :=
  pairs.all (fun q => rm.encodable q.1 q.2) && decide (writeLen rm pairs ≤ maxFrame)

/-- A read has a frame and an expected reply (R123, R215): every index is defined and both lengths fit. -/
def readEncodable (rm : RegMap) (indices : List Int) : Bool :=
  indices.all (fun i => (rm.findInt i).isSome) && decide (readLen indices ≤ maxFrame)
  && decide (readAckLen rm indices ≤ maxFrame)

/-- A synchronized write has a frame (R124, R215): the index is defined, every device id is a byte, every value has an
encoding, and the length fits. -/
def syncEncodable (rm : RegMap) (i : Int) (groups : List (Int × Value)) : Bool :=
  (rm.findInt i).isSome && groups.all (fun q => decide (0 ≤ q.1) && decide (q.1 ≤ 255) && rm.encodable i q.2)
  && decide (syncLen rm i groups ≤ maxFrame)

/-- `parse(P)` (41_codec.md R232) with fuel for the bytes left: the (index, value) pairs of a payload, none for FRAMING
(R233): an unknown Index byte, or a field that runs past the payload. -/
def parseFuel (rm : RegMap) : Nat → List Byte → Option (List (Nat × Value))
  | _, [] => some []
  | 0, _ :: _ => none
  | fuel + 1, b :: rest =>
    match rm.find b.toNat with
    | none => none
    | some d =>
      if rest.length < d.width then none
      else
        match parseFuel rm fuel (rest.drop d.width) with
        | none => none
        | some ps => some ((b.toNat, decValue d.fmt (rest.take d.width)) :: ps)

/-- `parse(P)` (41_codec.md R232). Every round takes at least one byte, so the payload's length is fuel enough. -/
def parsePayload (rm : RegMap) (P : List Byte) : Option (List (Nat × Value)) := parseFuel rm P.length P

/-- The payload of a frame (41_codec.md R220): `F[6 : len(F)-4]`, bounded by the bytes read. -/
def framePayload (F : List Byte) : List Byte := (F.take (F.length - 4)).drop 6

/-- The i-th byte of a frame (20_memory.md R81). Used only inside the frame's length. -/
def frameByte (F : List Byte) (i : Nat) : Byte := F.getD i 0#8

end Sys2Proof
end

