-- ==== Sys2Proof/WellFormed.lean ====
section
/-! DEFINITION. Well-formed instructions. A host operation's operands are unbounded integers and lists, and every range check
is made by the operation itself (30_encoding.md R162), so every host operation is well formed. A codec request is well formed
when its operands are what 41_codec.md R204, R207, R209 and R211 say its caller has validated. -/

namespace Sys2Proof

/-- A unicast target (41_codec.md R204, R209; 30_encoding.md R152): 0..254. -/
def unicastTarget (t : Byte) : Bool := decide (t.toNat ≤ 254)

/-- The operands of a WRITE or WRITE_ACK (41_codec.md R207): k ≥ 1 encodable pairs whose frame fits. -/
def writeOperandsWf (p : Params) (pairs : List (Int × Value)) : Bool := !pairs.isEmpty && writeEncodable p.regmap pairs

/-- The operands of a READ (41_codec.md R209): a unicast target and k ≥ 1 known indices whose frame and reply fit. -/
def readOperandsWf (p : Params) (t : Byte) (indices : List Int) : Bool :=
  unicastTarget t && !indices.isEmpty && readEncodable p.regmap indices

/-- The operands of a SYNC_WRITE (41_codec.md R211): a known index and k ≥ 1 groups of unicast ids and encodable values
whose frame fits. -/
def syncOperandsWf (p : Params) (i : Int) (groups : List (Int × Value)) : Bool :=
  !groups.isEmpty && groups.all (fun q => decide (q.1 ≤ 254)) && syncEncodable p.regmap i groups

/-- The well-formed instructions under a configuration. -/
def Instr.wf (p : Params) : Instr → Bool
  | .attach _ _ => true
  | .detach _ => true
  | .setVariables _ _ _ => true
  | .getVariables _ _ => true
  | .setVariablesSync _ _ => true
  | .ping _ => true
  | .reboot _ => true
  | .hardReset _ => true
  | .eepromWrite _ _ => true
  | .tune _ => true
  | .resetEncoder _ => true
  | .enterBootloader _ => true
  | .scan => true
  | .scanModules _ => true
  | .getDriverInfo _ => true
  | .updateMasterBaudrate _ => true
  | .updateDriverBaudrate _ _ => true
  | .getButton _ _ => true
  | .getLight _ _ => true
  | .setBuzzer _ _ _ => true
  | .getJoystick _ _ => true
  | .getDistance _ _ => true
  | .getQtr _ _ => true
  | .setServo _ _ _ => true
  | .getPotentiometer _ _ => true
  | .setRgb _ _ _ _ _ => true
  | .getImu _ _ => true
  | .framePing t => unicastTarget t
  | .frameWrite _ pairs => writeOperandsWf p pairs
  | .frameRead t indices => readOperandsWf p t indices
  | .frameEepromWrite t => unicastTarget t
  | .frameReboot t => unicastTarget t
  | .frameHardReset t => unicastTarget t
  | .frameTune t => unicastTarget t
  | .frameResetEnc t => unicastTarget t
  | .frameModuleScan t _ => unicastTarget t
  | .frameBlJump t => unicastTarget t
  | .frameSyncWrite i groups => syncOperandsWf p i groups
  | .frameWriteAck _ pairs => writeOperandsWf p pairs
  | .frameEepromWriteAck t => unicastTarget t
  | .crcInit => true
  | .crcFeed _ => true
  | .crcRead => true

end Sys2Proof
end

