-- ==== Sys2Proof/Decode.lean ====
section
/-! DEFINITION. Decoding and encoding. A request at a port decodes to an instruction or is rejected by name (30_encoding.md
R154, R161, R162; 41_codec.md R200; 40_crc.md R182); `encode` writes the request of an instruction. `parseFrame` reads a
request frame strictly, as a device on the line would (30_encoding.md R110 to R124, R155), and `buildFrame` writes one. -/

namespace Sys2Proof

/-! ## The host port -/

/-- The hop code of a host operation (30_encoding.md R161). -/
def HostOp.code : HostOp → Byte
  | .attach => 0x01#8
  | .detach => 0x02#8
  | .setVariables => 0x03#8
  | .getVariables => 0x04#8
  | .setVariablesSync => 0x05#8
  | .ping => 0x06#8
  | .reboot => 0x07#8
  | .hardReset => 0x08#8
  | .eepromWrite => 0x09#8
  | .tune => 0x0A#8
  | .resetEncoder => 0x0B#8
  | .enterBootloader => 0x0C#8
  | .scan => 0x0D#8
  | .scanModules => 0x0E#8
  | .getDriverInfo => 0x0F#8
  | .updateMasterBaudrate => 0x10#8
  | .updateDriverBaudrate => 0x11#8
  | .getButton => 0x20#8
  | .getLight => 0x21#8
  | .setBuzzer => 0x22#8
  | .getJoystick => 0x23#8
  | .getDistance => 0x24#8
  | .getQtr => 0x25#8
  | .setServo => 0x26#8
  | .getPotentiometer => 0x27#8
  | .setRgb => 0x28#8
  | .getImu => 0x29#8

/-- The host operations, in the order of 30_encoding.md R161. -/
def allHostOps : List HostOp :=
  [.attach, .detach, .setVariables, .getVariables, .setVariablesSync, .ping, .reboot, .hardReset, .eepromWrite, .tune,
   .resetEncoder, .enterBootloader, .scan, .scanModules, .getDriverInfo, .updateMasterBaudrate, .updateDriverBaudrate,
   .getButton, .getLight, .setBuzzer, .getJoystick, .getDistance, .getQtr, .setServo, .getPotentiometer, .setRgb, .getImu]

/-- The host operation a hop byte selects, none where it is illegal (30_encoding.md R154). -/
def hostOpOf (hop : Byte) : Option HostOp := allHostOps.find? (fun h => h.code == hop)

/-- Why a request is no instruction. -/
inductive Reject where
  /-- A hop code not in the table of 30_encoding.md R161 (R154). -/
  | unknownHop
  /-- Operands that are not of the types 30_encoding.md R162 gives the operation, or Command operands of another shape: no
  outcome exists for them (60_exceptions.md R360). -/
  | illTyped
  /-- A codec request whose byte F[0] is not 0x55 or that is not five frame bytes (R110). -/
  | notAFrameHead
  /-- A byte F[4] that is no Command's (30_encoding.md R141). -/
  | unknownCommand
  /-- SYNC_WRITE to another target than 255 (30_encoding.md R124). -/
  | syncNotBroadcast
  /-- CRC port code 0b11, which is not used (40_crc.md R182). -/
  | unusedCrcCode
deriving DecidableEq, Repr

/-- The operands of a host operation, typed (30_encoding.md R161, R162). -/
def decodeHostOperands : HostOp → List Operand → Except Reject Instr
  | .attach, [.int id, .int family] => .ok (.attach id family)
  | .detach, [.int id] => .ok (.detach id)
  | .setVariables, [.int id, .pairs ps, .bool ack] => .ok (.setVariables id ps ack)
  | .getVariables, [.int id, .ints is] => .ok (.getVariables id is)
  | .setVariablesSync, [.int index, .pairs gs] => .ok (.setVariablesSync index gs)
  | .ping, [.int id] => .ok (.ping id)
  | .reboot, [.int id] => .ok (.reboot id)
  | .hardReset, [.int id] => .ok (.hardReset id)
  | .eepromWrite, [.int id, .bool ack] => .ok (.eepromWrite id ack)
  | .tune, [.int id] => .ok (.tune id)
  | .resetEncoder, [.int id] => .ok (.resetEncoder id)
  | .enterBootloader, [.int id] => .ok (.enterBootloader id)
  | .scan, [] => .ok .scan
  | .scanModules, [.int id] => .ok (.scanModules id)
  | .getDriverInfo, [.int id] => .ok (.getDriverInfo id)
  | .updateMasterBaudrate, [.int baud] => .ok (.updateMasterBaudrate baud)
  | .updateDriverBaudrate, [.int id, .int baud] => .ok (.updateDriverBaudrate id baud)
  | .getButton, [.int id, .int m] => .ok (.getButton id m)
  | .getLight, [.int id, .int m] => .ok (.getLight id m)
  | .setBuzzer, [.int id, .int m, .value v] => .ok (.setBuzzer id m v)
  | .getJoystick, [.int id, .int m] => .ok (.getJoystick id m)
  | .getDistance, [.int id, .int m] => .ok (.getDistance id m)
  | .getQtr, [.int id, .int m] => .ok (.getQtr id m)
  | .setServo, [.int id, .int m, .int v] => .ok (.setServo id m v)
  | .getPotentiometer, [.int id, .int m] => .ok (.getPotentiometer id m)
  | .setRgb, [.int id, .int m, .int r, .int g, .int b] => .ok (.setRgb id m r g b)
  | .getImu, [.int id, .int m] => .ok (.getImu id m)
  | _, _ => .error .illTyped

/-- A record of the host port (30_encoding.md R161). -/
def decodeHost (r : HostReq) : Except Reject Instr :=
  match hostOpOf r.hop with
  | some h => decodeHostOperands h r.operands
  | none => .error .unknownHop

/-! ## The codec -/

/-- The operands of a codec request for target t (41_codec.md R204, R207, R209, R211). -/
def decodeCommand : Command → Byte → List Operand → Except Reject Instr
  | .ping, t, [] => .ok (.framePing t)
  | .write, t, [.pairs ps] => .ok (.frameWrite t ps)
  | .read, t, [.ints is] => .ok (.frameRead t is)
  | .eepromWrite, t, [] => .ok (.frameEepromWrite t)
  | .reboot, t, [] => .ok (.frameReboot t)
  | .hardReset, t, [] => .ok (.frameHardReset t)
  | .tune, t, [] => .ok (.frameTune t)
  | .resetEnc, t, [] => .ok (.frameResetEnc t)
  | .moduleScan, t, [.bool second] => .ok (.frameModuleScan t second)
  | .blJump, t, [] => .ok (.frameBlJump t)
  | .syncWrite, t, [.int i, .pairs gs] => if t = 0xFF#8 then .ok (.frameSyncWrite i gs) else .error .syncNotBroadcast
  | .writeAck, t, [.pairs ps] => .ok (.frameWriteAck t ps)
  | .eepromWriteAck, t, [] => .ok (.frameEepromWriteAck t)
  | _, _, _ => .error .illTyped

/-- The five frame bytes of a codec request, as the opcode table matches them (30_encoding.md R110): F[0] is 0x55, F[1] the
target and F[4] the Command byte. F[2] and F[3], the family and the length, are not operands: the codec writes them itself
(41_codec.md R201). -/
def decodeCodec (cm : CommandMap) : List Byte → List Operand → Except Reject Instr
  | [h, t, _, _, c], ops =>
    if h = hdrByte then
      match cm.command c with
      | some k => decodeCommand k t ops
      | none => .error .unknownCommand
    else .error .notAFrameHead
  | _, _ => .error .notAFrameHead

/-! ## The CRC port -/

/-- A request of the CRC engine's internal port (40_crc.md R182). -/
def decodeCrcPort (code : BitVec 2) (operand : Byte) : Except Reject Instr :=
  if code = 0b00#2 then .ok .crcInit
  else if code = 0b01#2 then .ok (.crcFeed operand)
  else if code = 0b10#2 then .ok .crcRead
  else .error .unusedCrcCode

/-- The instruction of a request, or the reason there is none. Total on every request. -/
def decode (cm : CommandMap) : Request → Except Reject Instr
  | .host r => decodeHost r
  | .internal (.codec head ops) => decodeCodec cm head ops
  | .internal (.crcPort code operand) => decodeCrcPort code operand

/-! ## Encoding -/

/-- The host-port record of an instruction (30_encoding.md R161); none for an instruction of an internal port. -/
def hostRequest : Instr → Option HostReq
  | .attach id family => some ⟨HostOp.code .attach, [.int id, .int family]⟩
  | .detach id => some ⟨HostOp.code .detach, [.int id]⟩
  | .setVariables id pairs ack => some ⟨HostOp.code .setVariables, [.int id, .pairs pairs, .bool ack]⟩
  | .getVariables id indices => some ⟨HostOp.code .getVariables, [.int id, .ints indices]⟩
  | .setVariablesSync index groups => some ⟨HostOp.code .setVariablesSync, [.int index, .pairs groups]⟩
  | .ping id => some ⟨HostOp.code .ping, [.int id]⟩
  | .reboot id => some ⟨HostOp.code .reboot, [.int id]⟩
  | .hardReset id => some ⟨HostOp.code .hardReset, [.int id]⟩
  | .eepromWrite id ack => some ⟨HostOp.code .eepromWrite, [.int id, .bool ack]⟩
  | .tune id => some ⟨HostOp.code .tune, [.int id]⟩
  | .resetEncoder id => some ⟨HostOp.code .resetEncoder, [.int id]⟩
  | .enterBootloader id => some ⟨HostOp.code .enterBootloader, [.int id]⟩
  | .scan => some ⟨HostOp.code .scan, []⟩
  | .scanModules id => some ⟨HostOp.code .scanModules, [.int id]⟩
  | .getDriverInfo id => some ⟨HostOp.code .getDriverInfo, [.int id]⟩
  | .updateMasterBaudrate baud => some ⟨HostOp.code .updateMasterBaudrate, [.int baud]⟩
  | .updateDriverBaudrate id baud => some ⟨HostOp.code .updateDriverBaudrate, [.int id, .int baud]⟩
  | .getButton id m => some ⟨HostOp.code .getButton, [.int id, .int m]⟩
  | .getLight id m => some ⟨HostOp.code .getLight, [.int id, .int m]⟩
  | .setBuzzer id m v => some ⟨HostOp.code .setBuzzer, [.int id, .int m, .value v]⟩
  | .getJoystick id m => some ⟨HostOp.code .getJoystick, [.int id, .int m]⟩
  | .getDistance id m => some ⟨HostOp.code .getDistance, [.int id, .int m]⟩
  | .getQtr id m => some ⟨HostOp.code .getQtr, [.int id, .int m]⟩
  | .setServo id m v => some ⟨HostOp.code .setServo, [.int id, .int m, .int v]⟩
  | .getPotentiometer id m => some ⟨HostOp.code .getPotentiometer, [.int id, .int m]⟩
  | .setRgb id m r g b => some ⟨HostOp.code .setRgb, [.int id, .int m, .int r, .int g, .int b]⟩
  | .getImu id m => some ⟨HostOp.code .getImu, [.int id, .int m]⟩
  | .framePing _ => none
  | .frameWrite _ _ => none
  | .frameRead _ _ => none
  | .frameEepromWrite _ => none
  | .frameReboot _ => none
  | .frameHardReset _ => none
  | .frameTune _ => none
  | .frameResetEnc _ => none
  | .frameModuleScan _ _ => none
  | .frameBlJump _ => none
  | .frameSyncWrite _ _ => none
  | .frameWriteAck _ _ => none
  | .frameEepromWriteAck _ => none
  | .crcInit => none
  | .crcFeed _ => none
  | .crcRead => none

/-- The target, the Command and the operands of a codec request (41_codec.md R204, R207, R209, R211); none for an
instruction of another port. SYNC_WRITE's target is 255 (30_encoding.md R124). -/
def codecRequest : Instr → Option (Byte × Command × List Operand)
  | .framePing t => some (t, .ping, [])
  | .frameWrite t pairs => some (t, .write, [.pairs pairs])
  | .frameRead t indices => some (t, .read, [.ints indices])
  | .frameEepromWrite t => some (t, .eepromWrite, [])
  | .frameReboot t => some (t, .reboot, [])
  | .frameHardReset t => some (t, .hardReset, [])
  | .frameTune t => some (t, .tune, [])
  | .frameResetEnc t => some (t, .resetEnc, [])
  | .frameModuleScan t second => some (t, .moduleScan, [.bool second])
  | .frameBlJump t => some (t, .blJump, [])
  | .frameSyncWrite i groups => some (0xFF#8, .syncWrite, [.int i, .pairs groups])
  | .frameWriteAck t pairs => some (t, .writeAck, [.pairs pairs])
  | .frameEepromWriteAck t => some (t, .eepromWriteAck, [])
  | _ => none

/-- The code and operand byte of a CRC port operation (40_crc.md R182). -/
def crcPortRequest : Instr → BitVec 2 × Byte
  | .crcFeed b => (0b01#2, b)
  | .crcRead => (0b10#2, 0#8)
  | _ => (0b00#2, 0#8)

/-- The request of an instruction. The family and length bytes of a codec request's head, which are not operands, are 0. -/
def encode (cm : CommandMap) (i : Instr) : Request :=
  match hostRequest i with
  | some r => .host r
  | none =>
    match codecRequest i with
    | some (t, c, ops) => .internal (.codec [hdrByte, t, 0#8, 0#8, cm.byte c] ops)
    | none => .internal (.crcPort (crcPortRequest i).1 (crcPortRequest i).2)

/-! ## The opcode table's words -/

/-- A host operation's operands of zeros: the integer 0, the empty list, false. -/
def HostOp.zeros : HostOp → List Operand
  | .attach => [.int 0, .int 0]
  | .detach => [.int 0]
  | .setVariables => [.int 0, .pairs [], .bool false]
  | .getVariables => [.int 0, .ints []]
  | .setVariablesSync => [.int 0, .pairs []]
  | .ping => [.int 0]
  | .reboot => [.int 0]
  | .hardReset => [.int 0]
  | .eepromWrite => [.int 0, .bool false]
  | .tune => [.int 0]
  | .resetEncoder => [.int 0]
  | .enterBootloader => [.int 0]
  | .scan => []
  | .scanModules => [.int 0]
  | .getDriverInfo => [.int 0]
  | .updateMasterBaudrate => [.int 0]
  | .updateDriverBaudrate => [.int 0, .int 0]
  | .getButton => [.int 0, .int 0]
  | .getLight => [.int 0, .int 0]
  | .setBuzzer => [.int 0, .int 0, .value (.scalar 0)]
  | .getJoystick => [.int 0, .int 0]
  | .getDistance => [.int 0, .int 0]
  | .getQtr => [.int 0, .int 0]
  | .setServo => [.int 0, .int 0, .int 0]
  | .getPotentiometer => [.int 0, .int 0]
  | .setRgb => [.int 0, .int 0, .int 0, .int 0, .int 0]
  | .getImu => [.int 0, .int 0]

/-- A Command's operands of zeros. -/
def Command.zeros : Command → List Operand
  | .write | .writeAck => [.pairs []]
  | .read => [.ints []]
  | .syncWrite => [.int 0, .pairs []]
  | .moduleScan => [.bool false]
  | _ => []

/-- The request of a word of spec/opcode_table.json, its operands zeros. A word of up to 2 bits is a CRC port code, one of up
to 8 bits a hop code, a wider one the frame bytes F[0..4] read as one 40-bit value with F[0] most significant, in the
Command bytes of TP, as the table writes them. In whole bytes the CRC port's codes 0, 1 and 2 are the byte words 0, 1 and 2;
of these 1 and 2 are hop codes too, and are read as those; 0 is no hop code and is read as CRC_INIT's (log 10). -/
def tableRequest (nbits w : Nat) : Request :=
  if nbits ≤ 2 then .internal (.crcPort (BitVec.ofNat 2 w) 0#8)
  else if nbits ≤ 8 then
    if BitVec.ofNat 8 w = 0#8 then .internal (.crcPort 0b00#2 0#8)
    else
      match hostOpOf (BitVec.ofNat 8 w) with
      | some h => .host ⟨h.code, h.zeros⟩
      | none => .host ⟨BitVec.ofNat 8 w, []⟩
  else
    .internal (.codec [BitVec.ofNat 8 (w / 2 ^ 32), BitVec.ofNat 8 (w / 2 ^ 24), BitVec.ofNat 8 (w / 2 ^ 16),
        BitVec.ofNat 8 (w / 2 ^ 8), BitVec.ofNat 8 w]
      (match tpCmd.command (BitVec.ofNat 8 w) with
       | some c => c.zeros
       | none => []))

/-- The instruction the decoder reads from a word of spec/opcode_table.json, in TP's Command bytes. -/
def decodeTableWord (nbits w : Nat) : Option Instr :=
  match decode tpCmd (tableRequest nbits w) with
  | .ok i => some i
  | .error _ => none

/-! ## Request frames on the line -/

/-- A sealed frame (30_encoding.md R110 to R113; 41_codec.md R202) with the given header bytes and payload. -/
def buildFrame (cm : CommandMap) (t : Byte) (c : Command) (family status : Byte) (payload : List Byte) : List Byte :=
  sealFrame ([hdrByte, t, family, BitVec.ofNat 8 (hdrLen + payload.length + crcLen), cm.byte c, status] ++ payload)

/-- The payload of a codec request (30_encoding.md R121 to R124); none for an instruction of another port. -/
def codecPayload (rm : RegMap) : Instr → Option (List Byte)
  | .frameWrite _ pairs => some (writePayload rm pairs)
  | .frameWriteAck _ pairs => some (writePayload rm pairs)
  | .frameRead _ indices => some (readPayload indices)
  | .frameSyncWrite i groups => some (syncPayload rm i groups)
  | i =>
    match codecRequest i with
    | some _ => some []
    | none => none

/-- Why a byte list is no request frame. -/
inductive FrameReject where
  /-- Shorter than ten bytes, not starting with 0x55, or of another length than its PackageSize byte says (R110, R112). -/
  | badLength
  /-- The CRC trailer does not match (R113). -/
  | badCrc
  /-- The Command byte is no Command's (R141). -/
  | unknownCommand
  /-- The payload breaks the format of the Command (R121 to R124). -/
  | badPayload
deriving DecidableEq, Repr

/-- The groups of an F-SYNC payload for a format (30_encoding.md R124), with fuel for the bytes left. -/
def parseGroups (fmt : List Prim) : Nat → List Byte → Option (List (Int × Value))
  | _, [] => some []
  | 0, _ :: _ => none
  | fuel + 1, b :: rest =>
    if rest.length < fmtWidth fmt then none
    else
      match parseGroups fmt fuel (rest.drop (fmtWidth fmt)) with
      | none => none
      | some gs => some (((b.toNat : Int), decValue fmt (rest.take (fmtWidth fmt))) :: gs)

/-- The pairs of an F-WRITE payload, as operands (30_encoding.md R122). -/
def parsePairs (rm : RegMap) (P : List Byte) : Option (List (Int × Value)) :=
  match parsePayload rm P with
  | some ps => some (ps.map (fun q => ((q.1 : Int), q.2)))
  | none => none

/-- The operands a request's payload carries for its Command (30_encoding.md R121 to R124). A MODULE_SCAN frame does not say
which issuance it is; it is read as the first. -/
def parseOperands (rm : RegMap) : Command → List Byte → Option (List Operand)
  | .write, P => (parsePairs rm P).map (fun ps => [.pairs ps])
  | .writeAck, P => (parsePairs rm P).map (fun ps => [.pairs ps])
  | .read, P =>
    if P.all (fun b => (rm.find b.toNat).isSome) then some [.ints (P.map (fun b => (b.toNat : Int)))] else none
  | .syncWrite, [] => none
  | .syncWrite, b :: P =>
    match rm.find b.toNat with
    | some d => (parseGroups d.fmt P.length P).map (fun gs => [.int b.toNat, .pairs gs])
    | none => none
  | .moduleScan, [] => some [.bool false]
  | _, [] => some []
  | _, _ :: _ => none

/-- A request frame read as a device on the line would read it (30_encoding.md R110, R155): header byte, length, CRC and
Command are checked, and the payload is split by REGMAP. The engine itself never parses a request (R155). The answer is the
codec instruction with the family and status bytes of the header. -/
def parseFrame (p : Params) (F : List Byte) : Except FrameReject (Instr × Byte × Byte) :=
  if F.length < minFrame ∨ frameByte F 0 ≠ hdrByte ∨ (frameByte F 3).toNat ≠ F.length then .error .badLength
  else if crcOk F = false then .error .badCrc
  else
    match p.cmd.command (frameByte F 4) with
    | none => .error .unknownCommand
    | some c =>
      match parseOperands p.regmap c (framePayload F) with
      | none => .error .badPayload
      | some ops =>
        match decodeCommand c (frameByte F 1) ops with
        | .ok i => .ok (i, frameByte F 2, frameByte F 5)
        | .error _ => .error .badPayload

end Sys2Proof
end

