-- ==== Sys2Proof/Machine/State.lean ====
section
/-! DEFINITION. The machine's state as plain data (10_state.md R30, R41 to R63), the results and error codes of an operation
(R58, 60_exceptions.md R361), the trace events (R59), the reasons a step can stop, and the state after reset (R63, R401). -/

namespace Sys2Proof.Machine

/-- The sequencing register's values (10_state.md R55). -/
inductive Phase where
  | idle | validate | encode | tx | settle | rx | check | decode | done
deriving DecidableEq, Repr

/-- Which read timeout the transport applies (10_state.md R54). -/
inductive TimeoutSel where
  | normal | scan
deriving DecidableEq, Repr

/-- The named delay parameters an event can carry (00_scope.md R15): P_WARMUP. -/
inductive DelayName where
  | warmup
deriving DecidableEq, Repr

/-- The transport events (10_state.md R59). -/
inductive Event where
  | tx (bytes : List Byte)
  | settle (baud : Nat)
  | rx (n : Nat) (bytes : List Byte)
  | delay (p : DelayName)
  | resetIn
  | resetOut
  | closePort
  | apply (baud : Nat)
  | openPort
  | timeout (sel : TimeoutSel)
deriving DecidableEq, Repr

/-- The error codes (60_exceptions.md R361). -/
inductive ErrorCode where
  | idRange | broadcast | notAttached | empty | moduleId | valueRange | baudRange | unknownIndex | shape | frameTooLong
  | readOnly | portClosed | unknownOp
deriving DecidableEq, Repr

/-- The outcomes of an operation (10_state.md R58). `none` is DOC's negative or absent result. -/
inductive Result where
  | done
  | none
  | bool (b : Bool)
  | values (vs : List Value)
  | ids (ids : List Nat)
  | indices (idxs : List Nat)
  | versions (hw sw : Byte × Byte × Byte)
  | framing
  | error (code : ErrorCode)
deriving DecidableEq, Repr

/-- The cells of the device table: (256 * slot + index, value), addresses strictly rising, and no cell equal to what an
unlisted one reads as (log 5; Machine/DeviceTable.lean). -/
abbrev Cells := List (Nat × Value)

/-- The block's state: the fourteen elements of 10_state.md R30, and no other. -/
structure Block where
  /-- `DT` (R41), as cells. -/
  dt : Cells
  /-- `baud_rate` (R48). -/
  baudRate : Nat
  /-- `settle_delay` (R49), in seconds. -/
  settleDelay : Rat
  /-- `last_scanned` (R50). -/
  lastScanned : List Nat
  /-- `ack_size` (R51). -/
  ackSize : Nat
  /-- `crc_reg` (R52). -/
  crcReg : Word32
  /-- `port_open` (R53). -/
  portOpen : Bool
  /-- `timeout_sel` (R54). -/
  timeoutSel : TimeoutSel
  /-- `phase` (R55). -/
  phase : Phase
  /-- `op` (R57). -/
  op : Option HostReq
  /-- `TXBUF` (R56). -/
  txbuf : List Byte
  /-- `RXBUF` (R56). -/
  rxbuf : List Byte
  /-- `result` (R58). -/
  result : Option Result
  /-- `trace` (R59), oldest event first. -/
  trace : List Event
deriving DecidableEq, Repr

/-- The state of a step: the block, its configuration, and what stands outside the block and is no state of it: what the host
and the bus agent are about to give it, what waits at its internal ports, and what an observer has seen of it. No operation reads what the observer holds
(`exec_seen` in Laws/Observer.lean), so the block after a step depends on the block, the configuration, the request and the
bus alone (10_state.md R30; logs 1, 3, 4, 6, 7). -/
structure State extends Block where
  /-- REGMAP, CMD and the other parameters (R11, R31): never written. -/
  cfg : Params
  /-- The host agent's: the host operations it has issued, the next one first (00_scope.md R5, R6; log 3). -/
  pending : List HostReq
  /-- Requests waiting at the block's internal ports, the next one first. The host has no access to them (00_scope.md R6,
  40_crc.md R181), and no step adds one; they stand for the calls the block's own units make of each other (log 3). -/
  internal : List InternalReq
  /-- The bus agent's: what it answers to the coming reads, the next answer first (log 4). -/
  busReplies : List (List Byte)
  /-- The bus agent's: how many reads have been made of it (log 4). -/
  busReads : Nat
  /-- The observer's: what the CRC port returned to its last CRC_READ (log 6). -/
  crcOut : Option Word32
  /-- The observer's: the phases the last accepted operation passed (log 7). -/
  phasePath : List Phase
deriving DecidableEq, Repr

/-- Why a step ends in a fault. The block has no fault of its own (60_exceptions.md R381). -/
inductive Fault where
  /-- Raised by WRITE, WRITE_ACK, READ and SYNC_WRITE, as codec requests of their own, for operands that have no encoding or
  whose frame does not fit PackageSize. The spec defines the encode functions only for operands their caller has checked
  (30_encoding.md R114, 41_codec.md R200, R215), so it gives no effect. Safe. -/
  | noEncoding
  /-- Raised by READ and the header-only Commands, as codec requests of their own, for target 255. The engine builds a request
  with F[1] = 255 only for WRITE, WRITE_ACK and SYNC_WRITE (30_encoding.md R152), and 41_codec.md R209 takes a READ's target
  from 0..254 only. That the codec stops there is the model's reading (log 11). Safe. -/
  | broadcastTarget
deriving DecidableEq, Repr

/-- Why a step is refused. -/
inductive Refusal where
  /-- Raised by exec for an instruction without a meaning. No instruction of this model has none. Safe. -/
  | notModelled (mnemonic : String)
  /-- Raised by step for a configuration that is not well formed: "A model must refuse a configuration that breaks it"
  (10_state.md R40). Safe. -/
  | badConfiguration
  /-- Raised by step for a host operation while phase is not IDLE: the host port accepts nothing then (10_state.md R57, U23). No
  step leaves such a state. Safe. -/
  | portBusy
  /-- Raised by step for a record whose operands are not of the operation's types: no outcome exists for it
  (60_exceptions.md R360). Safe. -/
  | illTypedOperands
  /-- Raised by step for a codec request that selects no Command (30_encoding.md R110, R124, R141). Safe. -/
  | noCommand
  /-- Raised by step for CRC port code 0b11, which is not used (40_crc.md R182, U24). Safe. -/
  | unusedCrcCode
deriving DecidableEq, Repr

/-- The state after reset of a block built with configuration p (10_state.md R63, 70_reset_and_hazards.md R401): every slot
the sentinel, so no cell listed. -/
def State.resetWith (p : Params) : State where
  cfg := p
  dt := []
  baudRate := p.baudInit
  settleDelay := settleOf p.baudInit
  lastScanned := []
  ackSize := 0
  crcReg := crcInitValue
  portOpen := true
  timeoutSel := .normal
  phase := .idle
  op := none
  txbuf := []
  rxbuf := []
  result := none
  trace := []
  pending := []
  internal := []
  busReplies := []
  busReads := 0
  crcOut := none
  phasePath := []

/-- The state after reset of the block built with the test profile (DESIGN CHOICE, log 1). -/
def State.reset : State := State.resetWith tp

end Sys2Proof.Machine
end

