-- ==== Sys2Proof/Machine/DeviceTable.lean ====
section
/-! DEFINITION. The device table (10_state.md R41 to R47): 256 slots of one mirror, held as the sorted list of the cells that
differ from the sentinel's. -/

namespace Sys2Proof.Machine

/-- The value of an index in `fresh(id, fam)` (R45): REGMAP's reset value, but DeviceID is id and DeviceFamily is fam. -/
def freshValue (id : Nat) (fam : Byte) (d : Descriptor) : Value :=
  if d.index = idxDeviceID then .scalar id
  else if d.index = idxDeviceFamily then .scalar fam.toNat
  else d.resetValue

/-- The address of an index of a slot's mirror. -/
def cellAddr (slot idx : Nat) : Nat := 256 * slot + idx

/-- The descriptor an address belongs to; none outside the 256 slots and at an index REGMAP does not define (R42, R83). -/
def cellDesc (p : Params) (a : Nat) : Option Descriptor :=
  if a < 256 * nSlots then p.regmap.find (a % 256) else none

/-- What an unlisted cell reads as: the sentinel mirror's value, `fresh(255, P_SENTINEL_FAMILY)` (R45, R63). -/
def unlistedValue (p : Params) (d : Descriptor) : Value := freshValue bcast p.sentinelFamily d

/-- The value a cell list holds at an address, none where it lists none. -/
def lookupCell (a : Nat) : Cells → Option Value
  | [] => none
  | (b, v) :: rest => if b = a then some v else lookupCell a rest

/-- A value put into a sorted cell list at an address. -/
def insertCell (a : Nat) (v : Value) : Cells → Cells
  | [] => [(a, v)]
  | (b, w) :: rest =>
    if a < b then (a, v) :: (b, w) :: rest
    else if a = b then (a, v) :: rest
    else (b, w) :: insertCell a v rest

/-- A cell list without an address. -/
def eraseCell (a : Nat) (m : Cells) : Cells := m.filter (fun c => c.1 != a)

/-- The value of an index of a slot's mirror, `M[slot][idx]` (R44); none where there is no such cell. -/
def readCells (p : Params) (m : Cells) (slot idx : Nat) : Option Value :=
  if 256 ≤ idx then none
  else
    match cellDesc p (cellAddr slot idx) with
    | some d => some ((lookupCell (cellAddr slot idx) m).getD (unlistedValue p d))
    | none => none

/-- A cell of a slot's mirror set to v. The value an unlisted cell reads as is not listed. Every caller has checked that the cell
exists. -/
def writeCells (p : Params) (m : Cells) (slot idx : Nat) (v : Value) : Cells :=
  if 256 ≤ idx then m
  else
    match cellDesc p (cellAddr slot idx) with
    | some d => if v = unlistedValue p d then eraseCell (cellAddr slot idx) m else insertCell (cellAddr slot idx) v m
    | none => m

/-- A slot with every cell at the sentinel's value. -/
def clearSlot (m : Cells) (slot : Nat) : Cells := m.filter (fun c => c.1 / 256 != slot)

/-- `DT[slot] <- fresh(id, fam)` (R45). -/
def installFresh (p : Params) (m : Cells) (slot id : Nat) (fam : Byte) : Cells :=
  writeCells p (writeCells p (clearSlot m slot) slot idxDeviceID (.scalar id)) slot idxDeviceFamily (.scalar fam.toNat)

/-- `M[slot][idx] <- v` by a rule that writes a mirror value (R44): CRCValue is hardwired, so its cell never takes a value and
keeps what REGMAP resets it to (R37, R64, 92_eei_decisions.md D3; log 22). -/
def writeValue (p : Params) (m : Cells) (slot idx : Nat) (v : Value) : Cells :=
  if idx = p.regmap.crcValue then m else writeCells p m slot idx v

/-- A list of (index, value) written in order into one mirror, so the last value of an index wins (42_bus_master.md R262,
41_codec.md R232). -/
def writeAll (p : Params) (m : Cells) (slot : Nat) : List (Nat × Value) → Cells
  | [] => m
  | (idx, v) :: rest => writeAll p (writeValue p m slot idx v) slot rest

/-- Addresses strictly rise. -/
def rising : Cells → Bool
  | [] => true
  | [_] => true
  | (a, _) :: (b, w) :: rest => decide (a < b) && rising ((b, w) :: rest)

/-- A cell belongs in the list: it exists, holds a value of its descriptor's format (R42, R43), and differs from what an
unlisted cell reads as. -/
def cellOk (p : Params) (c : Nat × Value) : Bool :=
  match cellDesc p c.1 with
  | some d => fits d.fmt c.2 && c.2 != unlistedValue p d
  | none => false

/-- The canonical form of the device table under a configuration. -/
def cellsWf (p : Params) (m : Cells) : Bool := rising m && m.all (cellOk p)

/-- `M[slot][idx]` of a state (R44). -/
def State.read (s : State) (slot idx : Nat) : Option Value := readCells s.cfg s.dt slot idx

/-- `M[slot][idx] <- v` for each pair in order (R44), with CRCValue hardwired (R64). -/
def State.writeMirror (s : State) (slot : Nat) (ws : List (Nat × Value)) : State :=
  { s with dt := writeAll s.cfg s.dt slot ws }

/-- `DT[slot] <- fresh(id, fam)` (R45). -/
def State.install (s : State) (slot id : Nat) (fam : Byte) : State :=
  { s with dt := installFresh s.cfg s.dt slot id fam }

/-- `DT[slot] <- fresh(255, P_SENTINEL_FAMILY)`, the sentinel mirror (R45). -/
def State.installSentinel (s : State) (slot : Nat) : State := s.install slot bcast s.cfg.sentinelFamily

/-- `attached(id)` (R46): the mirror in slot id has DeviceID id. -/
def State.attached (s : State) (id : Nat) : Bool := s.read id idxDeviceID == some (.scalar id)

/-- The byte a one-byte index of a mirror puts into a frame header (41_codec.md R201). A `u8` descriptor holds a scalar
0..255; the byte 0 for anything else is never used in a state whose table is in canonical form. -/
def State.mirrorByte (s : State) (slot idx : Nat) : Byte :=
  match s.read slot idx with
  | some (.scalar v) => BitVec.ofInt 8 v
  | _ => 0#8

end Sys2Proof.Machine
end

