-- ==== Sys2Proof/Machine/Flags.lean ====
section
/-! DEFINITION. The block has no condition codes: `port_open`, `timeout_sel` and the phase register are its only flags
(10_state.md R53 to R55, R60). This file writes them, and accepts and ends an operation (42_bus_master.md R258). -/

namespace Sys2Proof.Machine

/-- `phase <- P` (00_scope.md R15), noted in the model's own `phasePath`. -/
def State.setPhase (s : State) (ph : Phase) : State := { s with phase := ph, phasePath := s.phasePath ++ [ph] }

/-- A transport event appended to the trace (10_state.md R59). -/
def State.emit (s : State) (e : Event) : State := { s with trace := s.trace ++ [e] }

/-- A host operation accepted in IDLE (R258, 10_state.md R56, R57): it is latched in `op`, the frame buffers are cleared and
phase becomes VALIDATE. -/
def State.accept (s : State) (req : Option HostReq) : State :=
  { s with op := req, txbuf := [], rxbuf := [], phase := .validate, phasePath := [.validate] }

/-- `return R` (R258): the result is set, phase becomes DONE, the result is handed to the host, and phase becomes IDLE. -/
def State.finish (s : State) (r : Result) : State := ({ s with result := some r }.setPhase .done).setPhase .idle

/-- `raise E`, the block's only exception entry (60_exceptions.md R360, R381): the result is Error(code), and control goes
back to the host through DONE and IDLE. Nothing is saved and nothing is restored (R382). -/
def State.raiseError (s : State) (e : ErrorCode) : State := s.finish (.error e)

/-- `port_open <- false` with event Close (42_bus_master.md R275). -/
def State.closePort (s : State) : State := { s with trace := s.trace ++ [.closePort], portOpen := false }

/-- The reconfiguration of the transport (42_bus_master.md R320): ResetIn, ResetOut, Close, Apply(baud), Open, and then
`baud_rate`, `settle_delay` and `port_open`. -/
def State.reopenAt (s : State) (baud : Nat) : State :=
  { s with
    trace := s.trace ++ [.resetIn, .resetOut, .closePort, .apply baud, .openPort]
    baudRate := baud
    settleDelay := settleOf baud
    portOpen := true }

/-- `timeout_sel <- sel; record Timeout(sel)` (42_bus_master.md R300, 00_scope.md R15). -/
def State.selectTimeout (s : State) (sel : TimeoutSel) : State :=
  { s with timeoutSel := sel, trace := s.trace ++ [.timeout sel] }

/-- `last_scanned <- found` (42_bus_master.md R300). -/
def State.recordScanned (s : State) (found : List Nat) : State := { s with lastScanned := found }

end Sys2Proof.Machine
end

