-- ==== Sys2Proof/Machine/Ops.lean ====
section
/-! DEFINITION. The shared operations of the bus master: the codec's encode (41_codec.md R200 to R211), the transport
primitives (20_memory.md R95, R96), send (42_bus_master.md R257), the acknowledgment protocol (R280) with decode (41_codec.md
R230 to R233), and the running of a host operation (R258). -/

namespace Sys2Proof.Machine

/-! ## Encode -/

/-- `header(t, c, N)` followed by a payload (41_codec.md R201, R202): the payload is assembled first, then N is its length
with header and trailer. -/
def State.frameBody (s : State) (t : Byte) (c : Command) (payload : List Byte) : List Byte :=
  [hdrByte, t, s.mirrorByte t.toNat idxDeviceFamily, BitVec.ofNat 8 (hdrLen + payload.length + crcLen), s.cfg.cmd.byte c,
   s.mirrorByte t.toNat idxStatus] ++ payload

/-- An encode (41_codec.md R200, R202): the sealed frame into TXBUF and the expected acknowledgment size. The CRC engine
computes the trailer (R203), and its register keeps the value (log 8). -/
def State.encode (s : State) (t : Byte) (c : Command) (payload : List Byte) (ack : Nat) : State :=
  { s with
    txbuf := sealFrame (s.frameBody t c payload)
    ackSize := ack
    crcReg := crc32 (s.frameBody t c payload) }

/-- `hdr_ack(c)` (41_codec.md R206); MODULE_SCAN's is the caller's, 0 for the warm-up and 18 for the second issuance. -/
def hdrAck (second : Bool) : Command → Nat
  | .ping | .eepromWriteAck => minFrame
  | .moduleScan => if second then modscanResp else 0
  | _ => 0

/-- `enc_hdr(t, c)` (41_codec.md R204). -/
def State.encHdr (s : State) (t : Byte) (c : Command) (second : Bool) : State := s.encode t c [] (hdrAck second c)

/-- `enc_write(t, pairs, ack)` (41_codec.md R207, R208). -/
def State.encWrite (s : State) (t : Byte) (pairs : List (Int × Value)) (ack : Bool) : State :=
  s.encode t (if ack then .writeAck else .write) (writePayload s.cfg.regmap pairs)
    (if ack then hdrLen + (writePayload s.cfg.regmap pairs).length + crcLen else 0)

/-- `enc_read(t, indices)` (41_codec.md R209, R210). -/
def State.encRead (s : State) (t : Byte) (indices : List Int) : State :=
  s.encode t .read (readPayload indices) (readAckLen s.cfg.regmap indices)

/-- `enc_sync(i, groups)` (41_codec.md R211): addressed to 255, no acknowledgment. -/
def State.encSync (s : State) (i : Int) (groups : List (Int × Value)) : State :=
  s.encode (BitVec.ofNat 8 bcast) .syncWrite (syncPayload s.cfg.regmap i groups) 0

/-! ## Transport -/

/-- What the bus agent answers to a read of n bytes (20_memory.md R96): the next answer of the state, or where it lists none
the free value `Config.busAnswer` of this read; at most n bytes of it. -/
def State.answer (s : State) (n : Nat) : List Byte := (s.busReplies.headD (Config.busAnswer s.busReads)).take n

/-- `Rx(n)` with `RXBUF <- L` (20_memory.md R96, 42_bus_master.md R280). -/
def State.receive (s : State) (n : Nat) : State :=
  { s with
    trace := s.trace ++ [.rx n (s.answer n)]
    rxbuf := s.answer n
    busReplies := s.busReplies.tail
    busReads := s.busReads + 1 }

/-- `send()` (42_bus_master.md R257): TXBUF is transmitted, and its settle delay follows at once. -/
def State.send (s : State) : State :=
  (((s.setPhase .tx).emit (.tx s.txbuf)).setPhase .settle).emit (.settle s.baudRate)

/-- A header-only request encoded and sent. -/
def State.requestHdr (s : State) (t : Nat) (c : Command) (second : Bool) : State :=
  ((s.setPhase .encode).encHdr (BitVec.ofNat 8 t) c second).send

/-- A write request encoded and sent. -/
def State.requestWrite (s : State) (t : Nat) (pairs : List (Int × Value)) (ack : Bool) : State :=
  ((s.setPhase .encode).encWrite (BitVec.ofNat 8 t) pairs ack).send

/-- A read request encoded and sent. -/
def State.requestRead (s : State) (t : Nat) (indices : List Int) : State :=
  ((s.setPhase .encode).encRead (BitVec.ofNat 8 t) indices).send

/-- A synchronized write encoded and sent. -/
def State.requestSync (s : State) (i : Int) (groups : List (Int × Value)) : State :=
  ((s.setPhase .encode).encSync i groups).send

/-! ## The acknowledgment protocol -/

/-- What the bytes of a reply are, for an expected size (42_bus_master.md R280 to R283, 41_codec.md R232). -/
inductive Reply where
  /-- Fewer bytes than expected (R281). -/
  | short
  /-- A CRC mismatch (R282). -/
  | badCrc
  /-- Accepted without decode: PackageSize at most 10 (R283). -/
  | plain
  /-- Accepted, and the payload breaks the decode grammar (41_codec.md R233). -/
  | framing
  /-- Accepted, with the target slot F[1] (41_codec.md R231) and the pairs of the payload. -/
  | decoded (slot : Nat) (ws : List (Nat × Value))
deriving DecidableEq, Repr

/-- The classification of a reply, in the protocol's order (42_bus_master.md R280). -/
def classifyReply (rm : RegMap) (n : Nat) (L : List Byte) : Reply :=
  if L.length < n then .short
  else if crcOk L = false then .badCrc
  else if (frameByte L 3).toNat ≤ minFrame then .plain
  else
    match parsePayload rm (framePayload L) with
    | some ws => .decoded (frameByte L 1).toNat ws
    | none => .framing

/-- The answers of `ack_protocol()` (42_bus_master.md R280). -/
inductive Ack where
  | ok | fail | framing
deriving DecidableEq, Repr

/-- The commit of a decode (41_codec.md R231, R232): slot 255 is never written, and CRCValue keeps its value (log 22). -/
def State.commit (s : State) (slot : Nat) (ws : List (Nat × Value)) : State :=
  if slot = bcast then s else s.writeMirror slot ws

/-- The read of a reply: `phase <- RX; L <- Rx(n); RXBUF <- L; phase <- CHECK` (42_bus_master.md R280, R310). -/
def State.readReply (s : State) (n : Nat) : State := ((s.setPhase .rx).receive n).setPhase .check

/-- The CRC engine's register after the check of RXBUF (40_crc.md R178, R181; log 8). -/
def State.checkCrc (s : State) : State := { s with crcReg := crc32 (crcCovered s.rxbuf) }

/-- What the protocol does with a classified reply (42_bus_master.md R280). -/
def State.takeReply (s : State) : Reply → State × Ack
  | .short => (s, .fail)
  | .badCrc => (s.checkCrc, .fail)
  | .plain => (s.checkCrc, .ok)
  | .framing => (s.checkCrc.setPhase .decode, .framing)
  | .decoded slot ws => ((s.checkCrc.setPhase .decode).commit slot ws, .ok)

/-- `ack_protocol()` (42_bus_master.md R280): one read of `ack_size` bytes, no retry. -/
def State.ackProtocol (s : State) : State × Ack :=
  (s.readReply s.ackSize).takeReply (classifyReply s.cfg.regmap s.ackSize (s.readReply s.ackSize).rxbuf)

/-! ## Running a host operation -/

/-- The first error of a list of checks in order (60_exceptions.md R377). -/
def firstError : List (Option ErrorCode) → Option ErrorCode
  | [] => none
  | some e :: _ => some e
  | none :: rest => firstError rest

/-- A host operation (42_bus_master.md R258): accepted, its checks run in VALIDATE; the first error ends it; otherwise its
body runs and its result is returned. -/
def runOp (i : Instr) (check : State → Option ErrorCode) (body : State → State × Result) (s : State) : State :=
  match check (s.accept (hostRequest i)) with
  | some e => (s.accept (hostRequest i)).raiseError e
  | none => (body (s.accept (hostRequest i))).1.finish (body (s.accept (hostRequest i))).2

/-- An outcome of a step of this machine. -/
abbrev Outcome := Host.Outcome State Fault Refusal

end Sys2Proof.Machine
end

