-- ==== Sys2Proof/Machine/Operands.lean ====
section
/-! DEFINITION. The checks of the host operations' operands (42_bus_master.md R253 to R256, 43_peripherals.md R330) and the
check list of each operation in the order of 60_exceptions.md R377. -/

namespace Sys2Proof.Machine

/-- The number of an error code (60_exceptions.md R361). -/
def ErrorCode.code : ErrorCode → Byte
  | .idRange => 0x01#8
  | .broadcast => 0x02#8
  | .notAttached => 0x03#8
  | .empty => 0x04#8
  | .moduleId => 0x05#8
  | .valueRange => 0x06#8
  | .baudRange => 0x07#8
  | .unknownIndex => 0x08#8
  | .shape => 0x09#8
  | .frameTooLong => 0x0A#8
  | .readOnly => 0x0B#8
  | .portClosed => 0x0C#8
  | .unknownOp => 0x0D#8

/-- An error raised where a condition holds. -/
def failWhen (c : Bool) (e : ErrorCode) : Option ErrorCode := if c then some e else none

/-- `check_id(id, bcast_ok)` (R253). -/
def checkId (id : Int) (bcastOk : Bool) : Option ErrorCode :=
  if id < 0 ∨ 255 < id then some .idRange
  else if id = 255 ∧ bcastOk = false then some .broadcast
  else none

/-- `check_attached(id)` (R254), for an id in 0..255. -/
def checkAttached (s : State) (id : Int) : Option ErrorCode := failWhen (!s.attached id.toNat) .notAttached

/-- `check_value(i, v)` for i's descriptor (R255). -/
def checkValue (p : Params) (d : Descriptor) (v : Value) : Option ErrorCode :=
  firstError [failWhen (!shapeOk d.fmt v) .shape, failWhen (!fieldsInDomain d.fmt v.fields) .valueRange,
    failWhen (p.enforceMutable && !d.isMutable) .readOnly]

/-- One (index, value) pair of a write (R260): known, then `check_value`. -/
def checkPair (p : Params) (i : Int) (v : Value) : Option ErrorCode :=
  match p.regmap.findInt i with
  | none => some .unknownIndex
  | some d => checkValue p d v

/-- `check_port()` (R256). -/
def checkPort (s : State) : Option ErrorCode := failWhen (!s.portOpen) .portClosed

/-- The module identifier of an accessor (43_peripherals.md R330). -/
def checkModule (m : Int) : Option ErrorCode := failWhen (decide (m < 1) || decide (5 < m)) .moduleId

/-- A value outside 0..255 (43_peripherals.md R338, R340; 42_bus_master.md R250). -/
def checkByte (v : Int) : Option ErrorCode := failWhen (decide (v < 0) || decide (255 < v)) .valueRange

/-- A baud operand outside BAUD_MIN..BAUD_MAX (60_exceptions.md R372). -/
def checkBaud (baud : Int) : Option ErrorCode :=
  failWhen (decide (baud < baudMin) || decide ((baudMax : Int) < baud)) .baudRange

/-- The checks of `attach` (R250). -/
def checkAttach (id family : Int) : Option ErrorCode := firstError [checkId id false, checkByte family]

/-- The checks of `detach` (R252). -/
def checkDetach (id : Int) : Option ErrorCode := checkId id true

/-- The checks of `set_variables` (R260). -/
def checkSetVariables (s : State) (id : Int) (pairs : List (Int × Value)) : Option ErrorCode :=
  firstError [checkId id true, checkAttached s id, failWhen pairs.isEmpty .empty,
    firstError (pairs.map (fun q => checkPair s.cfg q.1 q.2)),
    failWhen (decide (maxFrame < writeLen s.cfg.regmap pairs)) .frameTooLong, checkPort s]

/-- The checks of `get_variables` (R266). -/
def checkGetVariables (s : State) (id : Int) (indices : List Int) : Option ErrorCode :=
  firstError [checkId id false, checkAttached s id, failWhen indices.isEmpty .empty,
    firstError (indices.map (fun i => failWhen (s.cfg.regmap.findInt i).isNone .unknownIndex)),
    failWhen (decide (maxFrame < readLen indices) || decide (maxFrame < readAckLen s.cfg.regmap indices)) .frameTooLong,
    checkPort s]

/-- The checks of `set_variables_sync` (R268). -/
def checkSetVariablesSync (s : State) (index : Int) (groups : List (Int × Value)) : Option ErrorCode :=
  match s.cfg.regmap.findInt index with
  | none => some .unknownIndex
  | some d =>
    firstError [failWhen groups.isEmpty .empty,
      firstError (groups.map (fun q => firstError [checkId q.1 false, checkValue s.cfg d q.2])),
      failWhen (decide (maxFrame < syncLen s.cfg.regmap index groups)) .frameTooLong, checkPort s]

/-- The checks of the header-only commands and `scan_modules` (R269 to R275, R310). -/
def checkUnicast (s : State) (id : Int) : Option ErrorCode :=
  firstError [checkId id false, checkAttached s id, checkPort s]

/-- The checks of `update_driver_baudrate` (R321): the BaudRate descriptor takes the value. -/
def checkDriverBaud (s : State) (id baud : Int) : Option ErrorCode :=
  firstError [checkId id false, checkAttached s id, checkBaud baud,
    checkPair s.cfg s.cfg.regmap.baudRate (.scalar baud), checkPort s]

/-- The Index of module m of a kind (43_peripherals.md R330): `BASE[k] + m - 1`. -/
def moduleIndex (p : Params) (k : ModuleKind) (m : Int) : Int := p.bank.base k + (m - 1)

/-- The checks of a getter (43_peripherals.md R331): the module identifier, then those of `get_variables`. -/
def checkGetter (s : State) (k : ModuleKind) (id m : Int) : Option ErrorCode :=
  firstError [checkModule m, checkGetVariables s id [moduleIndex s.cfg k m]]

/-- The checks of a setter (43_peripherals.md R331): the module identifier, the kind's own range check, the broadcast id, which
only `set_variables` and the sync target take (20_memory.md R82, 42_bus_master.md R253, 60_exceptions.md R363, D9, U4), then
those of `set_variables`. R331 and R377 read as letting a setter broadcast: log 23. -/
def checkSetter (s : State) (k : ModuleKind) (id m : Int) (range : Option ErrorCode) (v : Value) : Option ErrorCode :=
  firstError [checkModule m, range, checkId id false, checkSetVariables s id [(moduleIndex s.cfg k m, v)]]

end Sys2Proof.Machine
end

