-- ==== Sys2Proof/Machine/Transfers.lean ====
section
/-! DEFINITION. Writes and reads (42_bus_master.md R260 to R268). The bodies of `set_variables` and `get_variables` are shared
with the operations that expand to them (43_peripherals.md R331, R345). -/

namespace Sys2Proof.Machine

/-- The (index, value) operands of a write as mirror writes (R262); every index has been checked to be one. -/
def mirrorWrites (pairs : List (Int × Value)) : List (Nat × Value) := pairs.map (fun q => (q.1.toNat, q.2))

/-- The local pre-write (R262), skipped for id 255; CRCValue keeps its value (log 22). -/
def State.preWrite (s : State) (id : Nat) (pairs : List (Int × Value)) : State :=
  if id = bcast then s else s.writeMirror id (mirrorWrites pairs)

/-- `[M[id][i] for i in indices]` (R260, R266). Every index has been checked to be defined. -/
def State.readBack (s : State) (id : Nat) (indices : List Int) : List Value :=
  indices.filterMap (fun i => s.read id i.toNat)

/-- The result of an operation whose reply is decoded into values (R260, R266, 60_exceptions.md R375, R376). -/
def valuesResult (r : State × Ack) (id : Nat) (indices : List Int) : State × Result :=
  match r.2 with
  | .ok => (r.1, .values (r.1.readBack id indices))
  | .fail => (r.1, .none)
  | .framing => (r.1, .framing)

/-- The body of `set_variables` after its checks (R260): pre-write, encode, send, and for an acknowledged unicast write the
acknowledgment protocol. -/
def bodySetVariables (id : Nat) (pairs : List (Int × Value)) (ack : Bool) (s : State) : State × Result :=
  if ack && id != bcast then
    valuesResult ((s.preWrite id pairs).requestWrite id pairs ack).ackProtocol id (pairs.map (·.1))
  else ((s.preWrite id pairs).requestWrite id pairs ack, .none)

/-- The body of `get_variables` after its checks (R266). -/
def bodyGetVariables (id : Nat) (indices : List Int) (s : State) : State × Result :=
  valuesResult (s.requestRead id indices).ackProtocol id indices

/-- `set_variables(id, pairs, ack)` (R260). -/
def execSetVariables (id : Int) (pairs : List (Int × Value)) (ack : Bool) (s : State) : Outcome :=
  .next (runOp (.setVariables id pairs ack) (fun s => checkSetVariables s id pairs)
    (bodySetVariables id.toNat pairs ack) s)

/-- `get_variables(id, indices)` (R266). -/
def execGetVariables (id : Int) (indices : List Int) (s : State) : Outcome :=
  .next (runOp (.getVariables id indices) (fun s => checkGetVariables s id indices)
    (bodyGetVariables id.toNat indices) s)

/-- `set_variables_sync(index, id_value_pairs)` (R268): no attachment check, no mirror write, no reply. -/
def execSetVariablesSync (index : Int) (groups : List (Int × Value)) (s : State) : Outcome :=
  .next (runOp (.setVariablesSync index groups) (fun s => checkSetVariablesSync s index groups)
    (fun s => (s.requestSync index groups, .none)) s)

end Sys2Proof.Machine
end

