-- ==== Sys2Proof/Machine/Baud.lean ====
section
/-! DEFINITION. Baud rate (42_bus_master.md R320, R321). -/

namespace Sys2Proof.Machine

/-- `update_master_baudrate(baud)` (R320). -/
def execUpdateMasterBaudrate (baud : Int) (s : State) : Outcome :=
  .next (runOp (.updateMasterBaudrate baud) (fun _ => checkBaud baud) (fun s => (s.reopenAt baud.toNat, .done)) s)

/-- The body of `update_driver_baudrate` (R321): write BaudRate, persist, reboot, each sent with its settle delay. -/
def bodyDriverBaud (id : Nat) (baud : Int) (s : State) : State × Result :=
  ((((s.writeMirror id [(s.cfg.regmap.baudRate, .scalar baud)]).requestWrite id
        [((s.cfg.regmap.baudRate : Int), .scalar baud)] false).requestHdr id .eepromWrite false).requestHdr id
      .reboot false, .done)

/-- `update_driver_baudrate(id, baud)` (R321). -/
def execUpdateDriverBaudrate (id baud : Int) (s : State) : Outcome :=
  .next (runOp (.updateDriverBaudrate id baud) (fun s => checkDriverBaud s id baud) (bodyDriverBaud id.toNat baud) s)

end Sys2Proof.Machine
end

