-- ==== Sys2Proof/Machine/CodecPort.lean ====
section
/-! DEFINITION. The thirteen Commands as codec requests (30_encoding.md R140; 41_codec.md R200 to R211): each writes TXBUF and
`ack_size` (and the CRC engine's register, log 8) and calls no transport. Operands without an encoding fault, and so does
target 255 for a Command that is not broadcast (30_encoding.md R152): the spec gives the encode functions no effect there
(log 11). -/

namespace Sys2Proof.Machine

/-- A header-only request at the codec (R204, R206), for a unicast target (30_encoding.md R152, log 11). -/
def codecHdr (t : Byte) (c : Command) (second : Bool) (s : State) : Outcome :=
  if unicastTarget t then .next (s.encHdr t c second) else .fault .broadcastTarget

/-- PING (R204, R206). -/
def execFramePing (t : Byte) (s : State) : Outcome := codecHdr t .ping false s

/-- EEPROM_WRITE (R204, R206). -/
def execFrameEepromWrite (t : Byte) (s : State) : Outcome := codecHdr t .eepromWrite false s

/-- EEPROM_WRITE_ACK (R204, R206). -/
def execFrameEepromWriteAck (t : Byte) (s : State) : Outcome := codecHdr t .eepromWriteAck false s

/-- REBOOT (R204, R206). -/
def execFrameReboot (t : Byte) (s : State) : Outcome := codecHdr t .reboot false s

/-- HARD_RESET (R204, R206). -/
def execFrameHardReset (t : Byte) (s : State) : Outcome := codecHdr t .hardReset false s

/-- TUNE (R204, R206). -/
def execFrameTune (t : Byte) (s : State) : Outcome := codecHdr t .tune false s

/-- RESET_ENC (R204, R206). -/
def execFrameResetEnc (t : Byte) (s : State) : Outcome := codecHdr t .resetEnc false s

/-- MODULE_SCAN (R204, R206): the warm-up expects no reply, the second issuance 18 bytes. -/
def execFrameModuleScan (t : Byte) (second : Bool) (s : State) : Outcome := codecHdr t .moduleScan second s

/-- BL_JUMP (R204, R206). -/
def execFrameBlJump (t : Byte) (s : State) : Outcome := codecHdr t .blJump false s

/-- A write request at the codec (R207). An empty list, which R207's k >= 1 leaves out, is encoded as its pseudocode does
(log 11). -/
def codecWrite (t : Byte) (pairs : List (Int × Value)) (ack : Bool) (s : State) : Outcome :=
  if writeEncodable s.cfg.regmap pairs then .next (s.encWrite t pairs ack) else .fault .noEncoding

/-- WRITE (R207). -/
def execFrameWrite (t : Byte) (pairs : List (Int × Value)) (s : State) : Outcome := codecWrite t pairs false s

/-- WRITE_ACK (R207). -/
def execFrameWriteAck (t : Byte) (pairs : List (Int × Value)) (s : State) : Outcome := codecWrite t pairs true s

/-- READ (R209), for a unicast target: R209 gives its effect for t in 0..254, and the model stops for 255, which 30_encoding.md
R152 does not let the engine build (log 11). An empty list, which R209's k >= 1 leaves out, is encoded as its pseudocode does
(log 11). -/
def execFrameRead (t : Byte) (indices : List Int) (s : State) : Outcome :=
  if unicastTarget t then
    if readEncodable s.cfg.regmap indices then .next (s.encRead t indices) else .fault .noEncoding
  else .fault .broadcastTarget

/-- SYNC_WRITE (R211). An empty list and a group id 255, which R211 leaves out, are encoded as its pseudocode does (log 11). -/
def execFrameSyncWrite (i : Int) (groups : List (Int × Value)) (s : State) : Outcome :=
  if syncEncodable s.cfg.regmap i groups then .next (s.encSync i groups) else .fault .noEncoding

end Sys2Proof.Machine
end

