-- ==== Sys2Proof/Machine/CrcPort.lean ====
section
/-! DEFINITION. The CRC port operations (40_crc.md R171 to R173, R182). They touch the CRC engine only. -/

namespace Sys2Proof.Machine

/-- `CRC_INIT` (R171): `crc_reg <- 0xFFFFFFFF`. -/
def execCrcInit (s : State) : Outcome := .next { s with crcReg := crcInitValue }

/-- `CRC_FEED(b)` (R172). -/
def execCrcFeed (b : Byte) (s : State) : Outcome := .next { s with crcReg := crcFeedByte s.crcReg b }

/-- `CRC_READ` (R173): returns `crc_reg` at the port and writes no register (log 6). -/
def execCrcRead (s : State) : Outcome := .next { s with crcOut := some s.crcReg }

end Sys2Proof.Machine
end

