-- ==== Sys2Proof/Machine/Discovery.lean ====
section
/-! DEFINITION. Discovery (42_bus_master.md R300 to R312). -/

namespace Sys2Proof.Machine

/-- One round of `scan` (R300): a fresh mirror, a ping, and the mirror kept only on OK. -/
def scanProbe (id : Nat) (s : State) : State × Bool :=
  if (((s.install id id s.cfg.scanFamily).requestHdr id .ping false).ackProtocol).2 = .ok then
    ((((s.install id id s.cfg.scanFamily).requestHdr id .ping false).ackProtocol).1, true)
  else
    (((((s.install id id s.cfg.scanFamily).requestHdr id .ping false).ackProtocol).1).installSentinel id, false)

/-- The loop of `scan` over ascending ids (R300), with the ids found. -/
def scanLoop : List Nat → State → State × List Nat
  | [], s => (s, [])
  | id :: rest, s =>
    ((scanLoop rest (scanProbe id s).1).1,
      if (scanProbe id s).2 then id :: (scanLoop rest (scanProbe id s).1).2 else (scanLoop rest (scanProbe id s).1).2)

/-- The ids `scan` probes (R300): 0..254, ascending. -/
def scanIds : List Nat := List.range bcast

/-- The body of `scan` after its check (R300). -/
def bodyScan (s : State) : State × Result :=
  (((scanLoop scanIds (s.selectTimeout .scan)).1.selectTimeout .normal).recordScanned
      (scanLoop scanIds (s.selectTimeout .scan)).2,
   .ids (scanLoop scanIds (s.selectTimeout .scan)).2)

/-- `scan()` (R300). -/
def execScan (s : State) : Outcome := .next (runOp .scan checkPort bodyScan s)

/-- The explicit table of (bit offset, base Index) pairs (R311, 30_encoding.md R156). -/
def moduleTable (bk : Banks) : List (Nat × Nat) :=
  [(0, bk.button), (5, bk.light), (10, bk.buzzer), (15, bk.joystick), (20, bk.distance), (25, bk.qtr), (30, bk.servo),
   (35, bk.potentiometer), (40, bk.rgb), (45, bk.imu)]

/-- The populated slots of one kind: `base + (bit - offset)` for each of its five bits that is set (R311). -/
def kindSlots (mask off base : Nat) : List Nat :=
  ([0, 1, 2, 3, 4].filter (fun j => mask.testBit (off + j))).map (fun j => base + j)

/-- `modmap(mask)` (R311), in ascending bit order; bits 50..63 are ignored. -/
def modmap (bk : Banks) (mask : Nat) : List Nat := (moduleTable bk).flatMap (fun e => kindSlots mask e.1 e.2)

/-- The mask of a module-scan reply (20_memory.md R86): the little-endian value of `L[6:14]`. -/
def moduleMask (L : List Byte) : Nat := leValue ((L.take 14).drop 6)

/-- The requests of `scan_modules` (R310): the warm-up issuance, the delay, the real scan, and the read of the reply. -/
def moduleScanReply (id : Nat) (s : State) : State :=
  ((((s.requestHdr id .moduleScan false).emit (.delay .warmup)).requestHdr id .moduleScan true).readReply modscanResp)

/-- The result of `scan_modules` from its reply (R310): no decode, and PackageSize is not looked at. -/
def moduleScanResult (s : State) : State × Result :=
  if s.rxbuf.length < modscanResp then (s, .none)
  else if crcOk s.rxbuf then (s.checkCrc, .indices (modmap s.cfg.bank (moduleMask s.rxbuf)))
  else (s.checkCrc, .none)

/-- `scan_modules(id)` (R310). -/
def execScanModules (id : Int) (s : State) : Outcome :=
  .next (runOp (.scanModules id) (fun s => checkUnicast s id)
    (fun s => moduleScanResult (moduleScanReply id.toNat s)) s)

end Sys2Proof.Machine
end

