-- ==== Sys2Proof/Machine/HeaderOps.lean ====
section
/-! DEFINITION. The header-only commands (42_bus_master.md R269 to R275). -/

namespace Sys2Proof.Machine

/-- A header-only command without a reply (R270): encode, send, Done. -/
def bodyCommand (id : Nat) (c : Command) (s : State) : State × Result := (s.requestHdr id c false, .done)

/-- A header-only command with a 10-byte reply (R269, R272): `Bool(r = OK)`. -/
def bodyAcked (id : Nat) (c : Command) (s : State) : State × Result :=
  ((s.requestHdr id c false).ackProtocol.1, .bool ((s.requestHdr id c false).ackProtocol.2 == .ok))

/-- `ping(id)` (R269). -/
def execPing (id : Int) (s : State) : Outcome :=
  .next (runOp (.ping id) (fun s => checkUnicast s id) (bodyAcked id.toNat .ping) s)

/-- `reboot(id)` (R270). -/
def execReboot (id : Int) (s : State) : Outcome :=
  .next (runOp (.reboot id) (fun s => checkUnicast s id) (bodyCommand id.toNat .reboot) s)

/-- `hard_reset(id)` (R271). -/
def execHardReset (id : Int) (s : State) : Outcome :=
  .next (runOp (.hardReset id) (fun s => checkUnicast s id) (bodyCommand id.toNat .hardReset) s)

/-- `eeprom_write(id, ack)` (R272). -/
def execEepromWrite (id : Int) (ack : Bool) (s : State) : Outcome :=
  .next (runOp (.eepromWrite id ack) (fun s => checkUnicast s id)
    (if ack then bodyAcked id.toNat .eepromWriteAck else bodyCommand id.toNat .eepromWrite) s)

/-- `tune(id)` (R273). -/
def execTune (id : Int) (s : State) : Outcome :=
  .next (runOp (.tune id) (fun s => checkUnicast s id) (bodyCommand id.toNat .tune) s)

/-- `reset_encoder(id)` (R274). -/
def execResetEncoder (id : Int) (s : State) : Outcome :=
  .next (runOp (.resetEncoder id) (fun s => checkUnicast s id) (bodyCommand id.toNat .resetEnc) s)

/-- `enter_bootloader(id)` (R275): the port is closed after the frame. -/
def execEnterBootloader (id : Int) (s : State) : Outcome :=
  .next (runOp (.enterBootloader id) (fun s => checkUnicast s id)
    (fun s => ((s.requestHdr id.toNat .blJump false).closePort, .done)) s)

end Sys2Proof.Machine
end

