-- ==== Sys2Proof/Machine/Peripherals.lean ====
section
/-! DEFINITION. The peripheral accessors and driver info (43_peripherals.md R330 to R345): each expands into `get_variables`
or `set_variables`, with its own checks first and its own result transformation last. -/

namespace Sys2Proof.Machine

/-! ## Getters -/

/-- `r = Values([v])` becomes `Values([post(v)])`; any other result is unchanged (R331). -/
def mapSingle (post : Value → Value) : Result → Result
  | .values [v] => .values [post v]
  | r => r

/-- The body of a getter after its checks (R331). -/
def bodyGetter (k : ModuleKind) (id m : Int) (post : Value → Value) (s : State) : State × Result :=
  ((bodyGetVariables id.toNat [moduleIndex s.cfg k m] s).1,
    mapSingle post (bodyGetVariables id.toNat [moduleIndex s.cfg k m] s).2)

/-- `get_button(id, m)` (R332). -/
def execGetButton (id m : Int) (s : State) : Outcome :=
  .next (runOp (.getButton id m) (fun s => checkGetter s .button id m) (bodyGetter .button id m (fun v => v)) s)

/-- `get_light(id, m)` (R333). -/
def execGetLight (id m : Int) (s : State) : Outcome :=
  .next (runOp (.getLight id m) (fun s => checkGetter s .light id m) (bodyGetter .light id m (fun v => v)) s)

/-- `get_joystick(id, m)` (R335). -/
def execGetJoystick (id m : Int) (s : State) : Outcome :=
  .next (runOp (.getJoystick id m) (fun s => checkGetter s .joystick id m) (bodyGetter .joystick id m (fun v => v)) s)

/-- `get_distance(id, m)` (R336). -/
def execGetDistance (id m : Int) (s : State) : Outcome :=
  .next (runOp (.getDistance id m) (fun s => checkGetter s .distance id m) (bodyGetter .distance id m (fun v => v)) s)

/-- Bit i of a one-byte value, as 0 or 1 (R337). -/
def qtrBit (v : Int) (i : Nat) : Int := if (BitVec.ofInt 8 v).getLsbD i then 1 else 0

/-- `post_5(v)` (R337): the three low bits, in P_QTR_ORDER. The list is held as a tuple. -/
def postQtr (order : QtrOrder) : Value → Value
  | .scalar v =>
    match order with
    | .lsbFirst => .tuple [qtrBit v 0, qtrBit v 1, qtrBit v 2]
    | .msbFirst => .tuple [qtrBit v 2, qtrBit v 1, qtrBit v 0]
  | .tuple vs => .tuple vs

/-- `get_qtr(id, m)` (R337). -/
def execGetQtr (id m : Int) (s : State) : Outcome :=
  .next (runOp (.getQtr id m) (fun s => checkGetter s .qtr id m) (bodyGetter .qtr id m (postQtr s.cfg.qtrOrder)) s)

/-- `get_potentiometer(id, m)` (R339). -/
def execGetPotentiometer (id m : Int) (s : State) : Outcome :=
  .next (runOp (.getPotentiometer id m) (fun s => checkGetter s .potentiometer id m)
    (bodyGetter .potentiometer id m (fun v => v)) s)

/-- `get_imu(id, m)` (R341). -/
def execGetImu (id m : Int) (s : State) : Outcome :=
  .next (runOp (.getImu id m) (fun s => checkGetter s .imu id m) (bodyGetter .imu id m (fun v => v)) s)

/-! ## Setters -/

/-- The body of a setter after its checks (R331): a write without acknowledgment. -/
def bodySetter (k : ModuleKind) (id m : Int) (v : Value) (s : State) : State × Result :=
  bodySetVariables id.toNat [(moduleIndex s.cfg k m, v)] false s

/-- `set_buzzer(id, m, v)` (R334): no range check of its own. -/
def execSetBuzzer (id m : Int) (v : Value) (s : State) : Outcome :=
  .next (runOp (.setBuzzer id m v) (fun s => checkSetter s .buzzer id m none v) (bodySetter .buzzer id m v) s)

/-- `set_servo(id, m, v)` (R338). -/
def execSetServo (id m v : Int) (s : State) : Outcome :=
  .next (runOp (.setServo id m v) (fun s => checkSetter s .servo id m (checkByte v) (.scalar v))
    (bodySetter .servo id m (.scalar v)) s)

/-- The packed colour (R340): `r + g * 256 + b * 65536`. -/
def packRgb (r g b : Int) : Int := r + g * 256 + b * 65536

/-- `set_rgb(id, m, r, g, b)` (R340). -/
def execSetRgb (id m r g b : Int) (s : State) : Outcome :=
  .next (runOp (.setRgb id m r g b)
    (fun s => checkSetter s .rgb id m (firstError [checkByte r, checkByte g, checkByte b]) (.scalar (packRgb r g b)))
    (bodySetter .rgb id m (.scalar (packRgb r g b))) s)

/-! ## Driver information -/

/-- The index list of `get_driver_info` (R345). -/
def versionIndices (p : Params) : List Int := [(p.regmap.hardwareVersion : Int), (p.regmap.softwareVersion : Int)]

/-- `tri(v)` (R345): the low three bytes of `le_bytes_4(v)`. -/
def versionTriple : Value → Byte × Byte × Byte
  | .scalar v => (BitVec.ofInt 8 v, BitVec.ofInt 8 (v / 256), BitVec.ofInt 8 (v / 65536))
  | .tuple _ => (0#8, 0#8, 0#8)

/-- `r = Values([hw, sw])` becomes `Versions(tri(hw), tri(sw))`; any other result is unchanged (R345). -/
def toVersions : Result → Result
  | .values [hw, sw] => .versions (versionTriple hw) (versionTriple sw)
  | r => r

/-- One byte of a triple. -/
def VersionByte.of (t : Byte × Byte × Byte) : VersionByte → Byte
  | .b0 => t.1
  | .b1 => t.2.1
  | .b2 => t.2.2

/-- The three numbers of a triple in the order the host prints them, P_VERSION_ORDER (R345). The engine does not print. -/
def printedVersion (order : List VersionByte) (t : Byte × Byte × Byte) : List Byte := order.map (VersionByte.of t)

/-- `get_driver_info(id)` (R345). -/
def execGetDriverInfo (id : Int) (s : State) : Outcome :=
  .next (runOp (.getDriverInfo id) (fun s => checkGetVariables s id (versionIndices s.cfg))
    (fun s => ((bodyGetVariables id.toNat (versionIndices s.cfg) s).1,
      toVersions (bodyGetVariables id.toNat (versionIndices s.cfg) s).2)) s)

end Sys2Proof.Machine
end

