-- ==== Sys2Proof/Machine/TableOps.lean ====
section
/-! DEFINITION. Device-table management (42_bus_master.md R250, R252). No I/O, and the port is not checked. -/

namespace Sys2Proof.Machine

/-- `attach(id, family)` (R250). -/
def execAttach (id family : Int) (s : State) : Outcome :=
  .next (runOp (.attach id family) (fun _ => checkAttach id family)
    (fun s => (s.install id.toNat id.toNat (BitVec.ofInt 8 family), .done)) s)

/-- `detach(id)` (R252). -/
def execDetach (id : Int) (s : State) : Outcome :=
  .next (runOp (.detach id) (fun _ => checkDetach id) (fun s => (s.installSentinel id.toNat, .done)) s)

end Sys2Proof.Machine
end

