-- ==== Sys2Proof/Machine/Dispatch.lean ====
section
/-! DEFINITION. One arm per row of spec/opcode_table.json. -/

namespace Sys2Proof.Machine

def exec (i : Instr) (s : State) : Host.Outcome State Fault Refusal :=
  match i with
  | .attach id family => Sys2Proof.Machine.execAttach id family s
  | .detach id => Sys2Proof.Machine.execDetach id s
  | .setVariables id pairs ack => Sys2Proof.Machine.execSetVariables id pairs ack s
  | .getVariables id indices => Sys2Proof.Machine.execGetVariables id indices s
  | .setVariablesSync index groups => Sys2Proof.Machine.execSetVariablesSync index groups s
  | .ping id => Sys2Proof.Machine.execPing id s
  | .reboot id => Sys2Proof.Machine.execReboot id s
  | .hardReset id => Sys2Proof.Machine.execHardReset id s
  | .eepromWrite id ack => Sys2Proof.Machine.execEepromWrite id ack s
  | .tune id => Sys2Proof.Machine.execTune id s
  | .resetEncoder id => Sys2Proof.Machine.execResetEncoder id s
  | .enterBootloader id => Sys2Proof.Machine.execEnterBootloader id s
  | .scan => Sys2Proof.Machine.execScan s
  | .scanModules id => Sys2Proof.Machine.execScanModules id s
  | .getDriverInfo id => Sys2Proof.Machine.execGetDriverInfo id s
  | .updateMasterBaudrate baud => Sys2Proof.Machine.execUpdateMasterBaudrate baud s
  | .updateDriverBaudrate id baud => Sys2Proof.Machine.execUpdateDriverBaudrate id baud s
  | .getButton id m => Sys2Proof.Machine.execGetButton id m s
  | .getLight id m => Sys2Proof.Machine.execGetLight id m s
  | .setBuzzer id m v => Sys2Proof.Machine.execSetBuzzer id m v s
  | .getJoystick id m => Sys2Proof.Machine.execGetJoystick id m s
  | .getDistance id m => Sys2Proof.Machine.execGetDistance id m s
  | .getQtr id m => Sys2Proof.Machine.execGetQtr id m s
  | .setServo id m v => Sys2Proof.Machine.execSetServo id m v s
  | .getPotentiometer id m => Sys2Proof.Machine.execGetPotentiometer id m s
  | .setRgb id m r g b => Sys2Proof.Machine.execSetRgb id m r g b s
  | .getImu id m => Sys2Proof.Machine.execGetImu id m s
  | .framePing t => Sys2Proof.Machine.execFramePing t s
  | .frameWrite t pairs => Sys2Proof.Machine.execFrameWrite t pairs s
  | .frameRead t indices => Sys2Proof.Machine.execFrameRead t indices s
  | .frameEepromWrite t => Sys2Proof.Machine.execFrameEepromWrite t s
  | .frameReboot t => Sys2Proof.Machine.execFrameReboot t s
  | .frameHardReset t => Sys2Proof.Machine.execFrameHardReset t s
  | .frameTune t => Sys2Proof.Machine.execFrameTune t s
  | .frameResetEnc t => Sys2Proof.Machine.execFrameResetEnc t s
  | .frameModuleScan t second => Sys2Proof.Machine.execFrameModuleScan t second s
  | .frameBlJump t => Sys2Proof.Machine.execFrameBlJump t s
  | .frameSyncWrite index groups => Sys2Proof.Machine.execFrameSyncWrite index groups s
  | .frameWriteAck t pairs => Sys2Proof.Machine.execFrameWriteAck t pairs s
  | .frameEepromWriteAck t => Sys2Proof.Machine.execFrameEepromWriteAck t s
  | .crcInit => Sys2Proof.Machine.execCrcInit s
  | .crcFeed b => Sys2Proof.Machine.execCrcFeed b s
  | .crcRead => Sys2Proof.Machine.execCrcRead s

end Sys2Proof.Machine
end

