-- ==== Sys2Proof/Machine/Fetch.lean ====
section
/-! DEFINITION. Serving a request taken from a port: its decoding, and what a request that is no instruction does
(30_encoding.md R154, 60_exceptions.md R360, R374; 93_implementation_defined.md U22, U24). -/

namespace Sys2Proof.Machine

/-- An unknown hop code (30_encoding.md R154, 60_exceptions.md R374): the operation is accepted and fails with
Error(E_UNKNOWN_OP) in VALIDATE before any other check. -/
def rejectUnknownOp (req : HostReq) (s : State) : State := (s.accept (some req)).raiseError .unknownOp

/-- A request that decodes to no instruction. -/
def rejectRequest (why : Reject) (r : Request) (s : State) : Outcome :=
  match why, r with
  | .unknownHop, .host req => .next (rejectUnknownOp req s)
  | .unusedCrcCode, _ => .refused .unusedCrcCode
  | .notAFrameHead, _ => .refused .noCommand
  | .unknownCommand, _ => .refused .noCommand
  | .syncNotBroadcast, _ => .refused .noCommand
  | _, _ => .refused .illTypedOperands

/-- A request taken from a port: its instruction is executed. -/
def serveRequest (r : Request) (s : State) : Outcome :=
  match decode s.cfg.cmd r with
  | .ok i => exec i s
  | .error why => rejectRequest why r s

/-- The next request waiting, taken and served: one at an internal port, else the next host operation, which is accepted in
IDLE only (10_state.md R57). With none waiting the engine stays in IDLE: the next operation is whichever one the host issues
(R65). -/
def serveNext (s : State) : Outcome :=
  match s.internal with
  | r :: rest => serveRequest (.internal r) { s with internal := rest }
  | [] =>
    match s.pending with
    | [] => .next s
    | req :: rest => if s.phase = .idle then serveRequest (.host req) { s with pending := rest } else .refused .portBusy

end Sys2Proof.Machine
end

