-- ==== Sys2Proof/Machine/Step.lean ====
section
/-! DEFINITION. One step of the block: one whole operation, the transaction level of 00_scope.md R4. -/

namespace Sys2Proof.Machine

/-- One step: the next request waiting at a port is served. An ill-formed configuration is refused (10_state.md R40). -/
def step (s : State) : Host.Outcome State Fault Refusal :=
  if s.cfg.wf then serveNext s else .refused .badConfiguration

/-- The state with a word of spec/opcode_table.json as the next request served: a host operation the host issues, with no
internal request before it, or a request at an internal port (log 3). -/
def State.withFetchWord (s : State) (nbits w : Nat) : State :=
  match tableRequest nbits w with
  | .host req => { s with pending := req :: s.pending, internal := [] }
  | .internal req => { s with internal := req :: s.internal }

end Sys2Proof.Machine
end

