-- ==== Sys2Proof/Safety.lean ====
section
/-! DEFINITION. What a safe state and a safe run are, in the terms the statements use: the invariants of the device table, of
the engine registers and of the trace, the legal phase sequences, and the effect of an operation on the state as a relation
between the state before and the state after. -/

namespace Sys2Proof.Machine

/-! ## Invariants -/

/-- The device table is in canonical form under a well-formed configuration, and lists no cell of slot 255, which therefore
is the sentinel (10_state.md R42, R43, R47), and none of CRCValue, which therefore is hardwired (R64). -/
def TableInv (s : State) : Prop :=
  s.cfg.wf = true ∧ cellsWf s.cfg s.dt = true ∧ (∀ c ∈ s.dt, c.1 < cellAddr bcast 0)
  ∧ ∀ c ∈ s.dt, c.1 % 256 ≠ s.cfg.regmap.crcValue

/-- A strictly increasing list of unicast ids (10_state.md R50). -/
def scannedOk : List Nat → Bool
  | [] => true
  | [a] => decide (a < bcast)
  | a :: b :: rest => decide (a < b) && scannedOk (b :: rest)

/-- The engine registers hold legal values between operations (10_state.md R48 to R51, R54, R55). -/
def EngineInv (s : State) : Prop :=
  baudMin ≤ s.baudRate ∧ s.baudRate ≤ baudMax ∧ s.settleDelay = 30 / (s.baudRate : Rat)
  ∧ scannedOk s.lastScanned = true ∧ s.ackSize ≤ maxFrame ∧ s.timeoutSel = .normal ∧ s.phase = .idle

/-- A sealed frame (30_encoding.md R110, R112, R113; 41_codec.md R205, R215). -/
def frameSealed (F : List Byte) : Bool :=
  frameByte F 0 == hdrByte && decide (minFrame ≤ F.length) && decide (F.length ≤ maxFrame)
  && (frameByte F 3).toNat == F.length && crcOk F

/-- A frame to id 255 is a WRITE, a WRITE_ACK or a SYNC_WRITE (30_encoding.md R152). -/
def broadcastOk (cm : CommandMap) (F : List Byte) : Bool :=
  (frameByte F 1).toNat != bcast
  || [cm.write, cm.writeAck, cm.syncWrite].contains (frameByte F 4)

/-- Every transmitted frame of a trace is sealed and keeps the broadcast restriction. -/
def framesOk (cm : CommandMap) : List Event → Bool
  | [] => true
  | .tx F :: rest => frameSealed F && broadcastOk cm F && framesOk cm rest
  | _ :: rest => framesOk cm rest

/-- Every Tx is followed at once by a Settle (42_bus_master.md R257, 20_memory.md R98). -/
def settled : List Event → Bool
  | [] => true
  | .tx _ :: .settle _ :: rest => settled rest
  | .tx _ :: _ => false
  | _ :: rest => settled rest

/-- The port replayed along a trace, from open or closed: none where a frame is transmitted on a closed port (20_memory.md
R95). -/
def portReplay : Bool → List Event → Option Bool
  | o, [] => some o
  | true, .tx _ :: rest => portReplay true rest
  | false, .tx _ :: _ => none
  | _, .closePort :: rest => portReplay false rest
  | _, .openPort :: rest => portReplay true rest
  | o, _ :: rest => portReplay o rest

/-- The transport discipline of a run (20_memory.md R95, R98; 30_encoding.md R152; 41_codec.md R205). -/
def TraceInv (s : State) : Prop :=
  framesOk s.cfg.cmd s.trace = true ∧ settled s.trace = true ∧ portReplay true s.trace = some s.portOpen

/-- The invariant of the block between operations. -/
def Inv (s : State) : Prop := TableInv s ∧ EngineInv s ∧ TraceInv s

/-! ## Phases -/

/-- The phase transitions of 42_bus_master.md R258. -/
def phaseNext : Phase → Phase → Bool
  | .idle, .validate => true
  | .validate, .encode => true
  | .validate, .done => true
  | .encode, .tx => true
  | .tx, .settle => true
  | .settle, .encode => true
  | .settle, .rx => true
  | .settle, .done => true
  | .rx, .check => true
  | .check, .decode => true
  | .check, .encode => true
  | .check, .done => true
  | .decode, .encode => true
  | .decode, .done => true
  | .done, .idle => true
  | _, _ => false

/-- Every two phases in a row are a transition. -/
def phasesOk : List Phase → Bool
  | a :: b :: rest => phaseNext a b && phasesOk (b :: rest)
  | _ => true

/-! ## Runs of instructions -/

/-- Instructions executed one after another, stopping at the first fault or refusal. -/
def execAll : List Instr → State → Outcome
  | [], s => .next s
  | i :: rest, s =>
    match exec i s with
    | .next t => execAll rest t
    | .fault f => .fault f
    | .refused r => .refused r

/-! ## The effect of an operation -/

/-- A unicast operation can run: the id is 0..254 and attached, and the port is open (42_bus_master.md R253, R254, R256). -/
def State.ready (s : State) (id : Int) : Prop :=
  0 ≤ id ∧ id < 255 ∧ s.attached id.toNat = true ∧ s.portOpen = true

/-- Nothing but the frame buffers, `ack_size`, `crc_reg`, the mirrors, the trace, the bus and the operation's own registers
has changed, and the engine is in IDLE. -/
def registersKept (s t : State) : Prop :=
  t.cfg = s.cfg ∧ t.baudRate = s.baudRate ∧ t.settleDelay = s.settleDelay ∧ t.lastScanned = s.lastScanned
  ∧ t.portOpen = s.portOpen ∧ t.timeoutSel = s.timeoutSel ∧ t.crcOut = s.crcOut ∧ t.pending = s.pending
  ∧ t.internal = s.internal ∧ t.phase = .idle

/-- The bus agent has been asked for nothing. -/
def busKept (s t : State) : Prop := t.busReplies = s.busReplies ∧ t.busReads = s.busReads

/-- The operation that ended is `req`, with result r. -/
def ended (t : State) (req : HostReq) (r : Result) : Prop := t.op = some req ∧ t.result = some r

/-- An error's effect (60_exceptions.md R378): only phase, op and result are written; the frame buffers were cleared on
acceptance (10_state.md R56, log 9). The model's own `phasePath` is left to the state after. -/
def errorEffect (s t : State) (req : HostReq) (e : ErrorCode) : Prop :=
  t = { s with op := some req, result := some (.error e), txbuf := [], rxbuf := [], phase := .idle, phasePath := t.phasePath }

/-- The frame of a header-only request to a slot, from its mirror's family and status (41_codec.md R201, R204). -/
def hdrFrame (s : State) (id : Nat) (c : Command) : List Byte :=
  buildFrame s.cfg.cmd (BitVec.ofNat 8 id) c (s.mirrorByte id idxDeviceFamily) (s.mirrorByte id idxStatus) []

/-- The frame of a request to a slot with a payload (41_codec.md R202). -/
def requestFrame (s : State) (id : Nat) (c : Command) (payload : List Byte) : List Byte :=
  buildFrame s.cfg.cmd (BitVec.ofNat 8 id) c (s.mirrorByte id idxDeviceFamily) (s.mirrorByte id idxStatus) payload

/-- One frame sent and no reply read: TXBUF, `ack_size` and the trace (42_bus_master.md R257). -/
def sentOne (s t : State) (F : List Byte) (ack : Nat) : Prop :=
  t.txbuf = F ∧ t.ackSize = ack ∧ t.trace = s.trace ++ [.tx F, .settle s.baudRate] ∧ busKept s t

/-- One frame sent and one reply L of at most n bytes read (42_bus_master.md R257, R280). -/
def exchanged (s t : State) (F : List Byte) (n : Nat) (L : List Byte) : Prop :=
  t.txbuf = F ∧ t.ackSize = n ∧ t.rxbuf = L ∧ t.trace = s.trace ++ [.tx F, .settle s.baudRate, .rx n L]
  ∧ t.busReplies = s.busReplies.tail ∧ t.busReads = s.busReads + 1

/-- A reply the acknowledgment protocol accepts: n bytes with a matching CRC (42_bus_master.md R281, R282). -/
def accepted (n : Nat) (L : List Byte) : Bool := decide (n ≤ L.length) && crcOk L

/-- The last value a list of writes gives an index. -/
def lastWrite (idx : Nat) : List (Nat × Value) → Option Value
  | [] => none
  | (i, v) :: rest =>
    match lastWrite idx rest with
    | some w => some w
    | none => if i = idx then some v else none

/-- The mirror values after an accepted reply (42_bus_master.md R283; 41_codec.md R231 to R233): the table `m` with the
payload's pairs, but CRCValue's (log 22), written into slot F[1], none for a framing violation. -/
def decodedTable (p : Params) (m : Cells) (L : List Byte) : Option Cells :=
  if (frameByte L 3).toNat ≤ minFrame then some m
  else
    match parsePayload p.regmap (framePayload L) with
    | none => none
    | some ws => if (frameByte L 1).toNat = bcast then some m else some (writeAll p m (frameByte L 1).toNat ws)

/-- The values `vs` are those of the indices in a slot of a table, one for each, in order (42_bus_master.md R260, R266). -/
def valuesAre (p : Params) (m : Cells) (id : Nat) (indices : List Int) (vs : List Value) : Prop :=
  vs.map some = indices.map (fun i => readCells p m id i.toNat)

/-- A write operand the host may write: the index is known, the value is of its format, and it is mutable where that is
enforced (42_bus_master.md R255, 60_exceptions.md R371). -/
def writable (p : Params) (i : Int) (v : Value) : Prop :=
  ∃ d, p.regmap.findInt i = some d ∧ fits d.fmt v = true ∧ (p.enforceMutable = true → d.isMutable = true)

/-- The outcome of an acknowledged read or write for the table m it decodes into (42_bus_master.md R260, R266, R280): nothing
decoded and None for a reply that is not accepted; Framing and nothing written for a framing violation; else the values of
the requested slot after the decode. -/
def replyOutcome (t : State) (p : Params) (m : Cells) (id : Nat) (indices : List Int) (n : Nat) (L : List Byte) : Prop :=
  (accepted n L = false → t.dt = m ∧ t.result = some .none)
  ∧ (accepted n L = true → decodedTable p m L = none → t.dt = m ∧ t.result = some .framing)
  ∧ (∀ m', accepted n L = true → decodedTable p m L = some m' →
      t.dt = m' ∧ ∃ vs, t.result = some (.values vs) ∧ valuesAre p m' id indices vs)

/-- An accessor that reads (43_peripherals.md R331): it has the effect of `get_variables` of the one Index of module m of
kind k, with a single value v replaced by post v. -/
def readsModule (s : State) (i : Instr) (req : HostReq) (id m : Int) (k : ModuleKind) (post : Value → Value) : Prop :=
  ∃ t r r', exec (.getVariables id [(s.cfg.bank.base k : Int) + (m - 1)]) s = .next t ∧ t.result = some r
    ∧ (∀ e, r ≠ .error e) ∧ (∀ v, r = .values [v] → r' = .values [post v]) ∧ ((∀ v, r ≠ .values [v]) → r' = r)
    ∧ exec i s = .next { t with op := some req, result := some r' }

/-- An accessor that writes (43_peripherals.md R331): it has the effect of an unacknowledged `set_variables` of the one Index
of module m of kind k, and its result is None. -/
def writesModule (s : State) (i : Instr) (req : HostReq) (id m : Int) (k : ModuleKind) (v : Value) : Prop :=
  ∃ t, exec (.setVariables id [((s.cfg.bank.base k : Int) + (m - 1), v)] false) s = .next t ∧ t.result = some .none
    ∧ exec i s = .next { t with op := some req }

/-- The three low bits of a QTR byte, in P_QTR_ORDER (43_peripherals.md R337). -/
def qtrValue (o : QtrOrder) : Value → Value
  | .scalar v =>
    match o with
    | .lsbFirst => .tuple [v % 2, v / 2 % 2, v / 4 % 2]
    | .msbFirst => .tuple [v / 4 % 2, v / 2 % 2, v % 2]
  | .tuple vs => .tuple vs

/-- An operation that fails with an error and has no other effect (60_exceptions.md R360, R378). -/
def failsWith (i : Instr) (s : State) (req : HostReq) (e : ErrorCode) : Prop :=
  ∃ t, exec i s = .next t ∧ errorEffect s t req e

/-- The checks of an operation on one device, first failing check first (42_bus_master.md R253, R254, R256): the id's range,
the broadcast id, the attachment, the port. -/
def unicastChecks (i : Instr) (s : State) (req : HostReq) (id : Int) : Prop :=
  (id < 0 ∨ 255 < id → failsWith i s req .idRange) ∧ (id = 255 → failsWith i s req .broadcast)
  ∧ (0 ≤ id → id ≤ 254 → s.attached id.toNat = false → failsWith i s req .notAttached)
  ∧ (0 ≤ id → id ≤ 254 → s.attached id.toNat = true → s.portOpen = false → failsWith i s req .portClosed)

/-- The answer the bus agent has for the k-th read from now, of at most n bytes (20_memory.md R96). -/
def State.answerAt (s : State) (k n : Nat) : List Byte :=
  (s.busReplies.getD k (Config.busAnswer (s.busReads + k))).take n

end Sys2Proof.Machine
end

