-- ==== Sys2Proof/Certificates/Slice0/Obligations.lean ====
section
/-! DEFINITION. The statements for the provers. Where a statement says of a state only what the spec gives it, it leaves the
model's own fields (`phasePath`, `crcOut`, the port and bus inputs) to its frame; `crc_reg` between operations is log 8's. -/

open Sys2Proof Sys2Proof.Machine

/-! ## The CRC engine -/

/-- 40_crc.md R171, R172, R173: each CRC port operation completes in every state and writes `crc_reg` alone, CRC_READ none
of the spec's registers; its returned value stands in the model's own `crcOut` (log 6). CRC_FEED enters the byte at bits
31..24 and shifts eight times. -/
def Obligations.CrcPortOperationsComplete : Prop :=
  ∀ s : State,
    exec .crcInit s = .next { s with crcReg := 0xFFFFFFFF#32 }
    ∧ (∀ b : Byte, exec (.crcFeed b) s = .next { s with
        crcReg := crcShift (crcShift (crcShift (crcShift (crcShift (crcShift (crcShift (crcShift
          (s.crcReg ^^^ (BitVec.setWidth 32 b <<< 24)))))))))})
    ∧ exec .crcRead s = .next { s with crcOut := some s.crcReg }

/-- 40_crc.md R172: one shift of the register, in integers: doubled modulo 2^32, with the polynomial XORed in where bit 31
was set. The spec marks the shift procedure as general knowledge (log 19). -/
def Obligations.CrcShiftDoublesModuloPolynomial : Prop :=
  ∀ r : Word32, (crcShift r).toNat = (2 * r.toNat % 2 ^ 32) ^^^ (if 2 ^ 31 ≤ r.toNat then 0x04C11DB7 else 0)

/-- 40_crc.md R174: crc32 of a byte list is what CRC_READ returns after CRC_INIT and one CRC_FEED for each byte in order. -/
def Obligations.FeedingBytesReadsCrc32 : Prop :=
  ∀ (L : List Byte) (s : State),
    execAll ([Instr.crcInit] ++ L.map Instr.crcFeed ++ [Instr.crcRead]) s
      = .next { s with crcReg := crc32 L, crcOut := some (crc32 L) }

/-- 40_crc.md R175, which the spec marks as derived from R172: the byte-table form of CRC_FEED equals the shift form for
every register and byte, so both give the same crc32 of every byte list. -/
def Obligations.CrcTableFormAgrees : Prop :=
  (∀ (r : Word32) (b : Byte), crcFeedByte r b = (r <<< 8) ^^^ crcTable (BitVec.setWidth 8 (r >>> 24) ^^^ b))
  ∧ ∀ L : List Byte,
      L.foldl (fun (r : Word32) (b : Byte) => (r <<< 8) ^^^ crcTable (BitVec.setWidth 8 (r >>> 24) ^^^ b)) 0xFFFFFFFF#32 = crc32 L

/-- 40_crc.md R180: every change of one byte changes crc32, so a frame with one covered byte changed fails its check. -/
def Obligations.OneByteChangeChangesCrc : Prop :=
  ∀ (L : List Byte) (i : Nat) (b : Byte), i < L.length → L[i]? ≠ some b →
    crc32 (L.set i b) ≠ crc32 L ∧ crcOk (L.set i b ++ leBytes 4 (crc32 L).toNat) = false

/-- 40_crc.md R177, R178: a sealed frame is the bytes followed by the four little-endian bytes of their CRC, and it passes
the check; and a frame passes exactly where its CRC is the little-endian value of its last four bytes. -/
def Obligations.SealedFramesPassTheCheck : Prop :=
  (∀ B : List Byte, sealFrame B = B ++ [(crc32 B).extractLsb' 0 8, (crc32 B).extractLsb' 8 8, (crc32 B).extractLsb' 16 8,
      (crc32 B).extractLsb' 24 8] ∧ crcOk (sealFrame B) = true)
  ∧ ∀ (B : List Byte) (b0 b1 b2 b3 : Byte), crcOk (B ++ [b0, b1, b2, b3]) = true
      ↔ (crc32 B).toNat = b0.toNat + 256 * b1.toNat + 65536 * b2.toNat + 16777216 * b3.toNat

/-! ## Fields and values -/

/-- 30_encoding.md R114, R115: decoding an encoded field gives the value back, for every type and every value of its domain,
and the encoding has the width of the type. -/
def Obligations.FieldDecodesToWhatWasEncoded : Prop :=
  ∀ (t : Prim) (v : Int), t.inDomain v = true →
    (encField t v).length = t.width ∧ decField t (encField t v) = v

/-- 30_encoding.md R116, R117: the encoding of a value of a format has the format's width and decodes to the value, scalar
or tuple. -/
def Obligations.ValueDecodesToWhatWasEncoded : Prop :=
  ∀ (fmt : List Prim) (v : Value), fits fmt v = true →
    (encValue fmt v).length = fmtWidth fmt ∧ decValue fmt (encValue fmt v) = v

/-- 30_encoding.md R115, 20_memory.md R103 (which the spec marks as derived): what a decoder reads from bytes of a format's
width is a value of the format: the right shape, every field in its domain. -/
def Obligations.DecodedValuesFitTheirFormat : Prop :=
  ∀ (fmt : List Prim) (B : List Byte), fmt ≠ [] → B.length = fmtWidth fmt → fits fmt (decValue fmt B) = true

/-! ## The device table -/

/-- 42_bus_master.md R262, 41_codec.md R232: a list of writes in order leaves each index the last value it was given, and
every other index of every slot as before. CRCValue is hardwired (10_state.md R64): that a write to it is discarded is the
model's reading (log 22). -/
def Obligations.MirrorWritesLastValueWins : Prop :=
  ∀ (p : Params) (m : Cells) (slot : Nat) (ws : List (Nat × Value)),
    slot < 256 → (∀ w ∈ ws, w.1 < 256 ∧ (p.regmap.find w.1).isSome = true) →
      (∀ idx v, idx ≠ p.regmap.crcValue → lastWrite idx ws = some v →
          readCells p (writeAll p m slot ws) slot idx = some v)
      ∧ (∀ idx, lastWrite idx ws = none ∨ idx = p.regmap.crcValue →
          readCells p (writeAll p m slot ws) slot idx = readCells p m slot idx)
      ∧ ∀ slot' idx', slot' ≠ slot → readCells p (writeAll p m slot ws) slot' idx' = readCells p m slot' idx'

/-- 10_state.md R42: two device tables in canonical form that read the same at every index of every slot are equal, so equal
mirrors are equal data (the canonical form is the model's, log 5). -/
def Obligations.TablesThatReadAlikeAreEqual : Prop :=
  ∀ (p : Params) (m m' : Cells), cellsWf p m = true → cellsWf p m' = true →
    (∀ slot idx, readCells p m slot idx = readCells p m' slot idx) → m = m'

/-- 41_codec.md R201: in every state of the invariant the header bytes of a slot are its mirror's DeviceFamily and Status
values, each one byte. -/
def Obligations.HeaderBytesAreMirrorValues : Prop :=
  ∀ (s : State) (slot : Nat), TableInv s → slot < 256 →
    s.read slot 2 = some (.scalar (s.mirrorByte slot 2).toNat)
    ∧ s.read slot 5 = some (.scalar (s.mirrorByte slot 5).toNat)

/-! ## The codec -/

/-- 41_codec.md R204, R206: each header-only Command, for every unicast target (30_encoding.md R152: the engine builds none
for 255), completes with the ten-byte frame of the target's header sealed in TXBUF and with its acknowledgment size, and
writes nothing else but the CRC engine's register (log 8). -/
def Obligations.HeaderCommandsEncode : Prop :=
  ∀ (s : State) (t : Byte), t ≠ 0xFF#8 →
    (∀ e ∈ [(Instr.framePing t, Command.ping, 10), (.frameReboot t, .reboot, 0), (.frameHardReset t, .hardReset, 0),
        (.frameEepromWrite t, .eepromWrite, 0), (.frameEepromWriteAck t, .eepromWriteAck, 10), (.frameTune t, .tune, 0),
        (.frameResetEnc t, .resetEnc, 0), (.frameBlJump t, .blJump, 0), (.frameModuleScan t false, .moduleScan, 0),
        (.frameModuleScan t true, .moduleScan, 18)],
      ∃ u, exec e.1 s = .next u
        ∧ u = { s with
            txbuf := sealFrame [0x55#8, t, s.mirrorByte t.toNat 2, 10#8, s.cfg.cmd.byte e.2.1, s.mirrorByte t.toNat 5]
            ackSize := e.2.2
            crcReg := u.crcReg })

/-- 41_codec.md R207, R208: WRITE and WRITE_ACK, for every target and every list of encodable pairs whose frame fits,
complete with the sealed frame of header and pairs in TXBUF, and with acknowledgment size 0 and the request's length. R207
takes at least one pair; that the empty list is encoded by the same pseudocode is the model's reading (log 11). -/
def Obligations.WriteCommandsEncode : Prop :=
  ∀ (s : State) (t : Byte) (pairs : List (Int × Value)),
    (∀ q ∈ pairs, s.cfg.regmap.encodable q.1 q.2 = true) → writeLen s.cfg.regmap pairs ≤ 255 →
    ∀ e ∈ [(Instr.frameWrite t pairs, Command.write, 0), (.frameWriteAck t pairs, .writeAck, writeLen s.cfg.regmap pairs)],
      ∃ u, exec e.1 s = .next u
        ∧ u = { s with
            txbuf := sealFrame ([0x55#8, t, s.mirrorByte t.toNat 2, BitVec.ofNat 8 (writeLen s.cfg.regmap pairs),
                s.cfg.cmd.byte e.2.1, s.mirrorByte t.toNat 5]
              ++ pairs.flatMap (fun q => BitVec.ofInt 8 q.1 :: s.cfg.regmap.encValueAt q.1 q.2))
            ackSize := e.2.2
            crcReg := u.crcReg }

/-- 41_codec.md R209, R210: READ, for every target 0..254 and every list of known indices whose frame and reply fit, completes
with the sealed frame of header and index bytes in TXBUF and with the reply's length as acknowledgment size. R209 takes at
least one index; that the empty list is encoded by the same pseudocode is the model's reading (log 11). -/
def Obligations.ReadCommandEncodes : Prop :=
  ∀ (s : State) (t : Byte) (indices : List Int), t ≠ 0xFF#8 →
    (∀ i ∈ indices, (s.cfg.regmap.findInt i).isSome = true) → 6 + indices.length + 4 ≤ 255 →
    6 + (indices.map (fun i => 1 + s.cfg.regmap.widthInt i)).sum + 4 ≤ 255 →
      ∃ u, exec (.frameRead t indices) s = .next u
        ∧ u = { s with
            txbuf := sealFrame ([0x55#8, t, s.mirrorByte t.toNat 2, BitVec.ofNat 8 (6 + indices.length + 4),
                s.cfg.cmd.read, s.mirrorByte t.toNat 5] ++ indices.map (BitVec.ofInt 8))
            ackSize := 6 + (indices.map (fun i => 1 + s.cfg.regmap.widthInt i)).sum + 4
            crcReg := u.crcReg }

/-- 41_codec.md R211: SYNC_WRITE of a known index to groups of unicast ids and encodable values whose frame fits completes
with the sealed broadcast frame in TXBUF and acknowledgment size 0. R211 takes at least one group; that the empty list is
encoded by the same pseudocode is the model's reading (log 11). -/
def Obligations.SyncCommandEncodes : Prop :=
  ∀ (s : State) (i : Int) (groups : List (Int × Value)),
    (s.cfg.regmap.findInt i).isSome = true →
    (∀ q ∈ groups, 0 ≤ q.1 ∧ q.1 ≤ 254 ∧ s.cfg.regmap.encodable i q.2 = true) →
    6 + 1 + groups.length * (1 + s.cfg.regmap.widthInt i) + 4 ≤ 255 →
      ∃ u, exec (.frameSyncWrite i groups) s = .next u
        ∧ u = { s with
            txbuf := sealFrame ([0x55#8, 0xFF#8, s.mirrorByte 255 2,
                BitVec.ofNat 8 (6 + 1 + groups.length * (1 + s.cfg.regmap.widthInt i) + 4), s.cfg.cmd.syncWrite,
                s.mirrorByte 255 5]
              ++ (BitVec.ofInt 8 i :: groups.flatMap (fun q => BitVec.ofInt 8 q.1 :: s.cfg.regmap.encValueAt i q.2)))
            ackSize := 0
            crcReg := u.crcReg }

/-- 41_codec.md R205 (which the spec marks as derived from R202), R215: every well-formed codec request leaves a sealed
frame in TXBUF: its PackageSize byte is its length, at most 255, its CRC matches, and its acknowledgment size is at most
255. -/
def Obligations.CodecRequestsLeaveSealedFrames : Prop :=
  ∀ (s : State) (i : Instr), (codecRequest i).isSome = true → i.wf s.cfg = true →
    ∃ u, exec i s = .next u ∧ frameSealed u.txbuf = true ∧ (frameByte u.txbuf 3).toNat = u.txbuf.length
      ∧ u.ackSize ≤ 255

/-- 30_encoding.md R114, R152, 41_codec.md R215: a WRITE, WRITE_ACK, READ or SYNC_WRITE at the codec whose operands have no
encoding, or whose frame does not fit PackageSize, stops and writes nothing; and so does a READ or a header-only Command for
target 255, which the engine builds for WRITE, WRITE_ACK and SYNC_WRITE only. That they stop, by these faults, is the model's
choice (log 11). -/
def Obligations.UnencodableRequestsStop : Prop :=
  ∀ (s : State) (t : Byte) (pairs : List (Int × Value)) (indices : List Int) (index : Int) (second : Bool),
    ((∃ q ∈ pairs, s.cfg.regmap.encodable q.1 q.2 = false) ∨ 255 < writeLen s.cfg.regmap pairs →
      exec (.frameWrite t pairs) s = .fault .noEncoding ∧ exec (.frameWriteAck t pairs) s = .fault .noEncoding)
    ∧ (t ≠ 0xFF#8 →
        (∃ i ∈ indices, s.cfg.regmap.findInt i = none) ∨ 255 < readLen indices ∨ 255 < readAckLen s.cfg.regmap indices →
      exec (.frameRead t indices) s = .fault .noEncoding)
    ∧ (s.cfg.regmap.findInt index = none ∨ (∃ q ∈ pairs, q.1 < 0 ∨ 255 < q.1 ∨ s.cfg.regmap.encodable index q.2 = false)
        ∨ 255 < syncLen s.cfg.regmap index pairs →
      exec (.frameSyncWrite index pairs) s = .fault .noEncoding)
    ∧ ∀ i ∈ [Instr.frameRead 0xFF#8 indices, .framePing 0xFF#8, .frameReboot 0xFF#8, .frameHardReset 0xFF#8,
        .frameEepromWrite 0xFF#8, .frameEepromWriteAck 0xFF#8, .frameTune 0xFF#8, .frameResetEnc 0xFF#8,
        .frameModuleScan 0xFF#8 second, .frameBlJump 0xFF#8],
      exec i s = .fault .broadcastTarget

/-- 30_encoding.md R110 to R124: the frame of every well-formed codec request, with any family and status byte, is read back
by a strict reader (the model's, log 21) as that request, family and status, so no operand of a request is lost on the line.
(A MODULE_SCAN frame does not say which issuance it is.) -/
def Obligations.RequestFramesReadBack : Prop :=
  ∀ (p : Params) (i : Instr) (t : Byte) (c : Command) (ops : List Operand) (P : List Byte) (family status : Byte),
    p.wf = true → i.wf p = true → codecRequest i = some (t, c, ops) → codecPayload p.regmap i = some P →
      parseFrame p (buildFrame p.cmd t c family status P)
        = .ok (match i with | .frameModuleScan t _ => .frameModuleScan t false | j => j, family, status)

/-- 41_codec.md R235, which the spec marks as derived from R232: a reply carrying one encoded (index, value) pair for slot s
in 0..254 is decoded to exactly that write, and the write gives the mirror the value; CRCValue's, which is hardwired
(10_state.md R64), is discarded, by the model's reading (log 22). -/
def Obligations.ReplyRoundTrip : Prop :=
  ∀ (s : State) (idx slot : Nat) (d : Descriptor) (v : Value) (c : Command) (family status : Byte) (n : Nat),
    s.cfg.regmap.find idx = some d → idx < 256 → fits d.fmt v = true → slot < 255 →
    6 + (1 + d.width) + 4 ≤ 255 → n ≤ 6 + (1 + d.width) + 4 →
      classifyReply s.cfg.regmap n
          (buildFrame s.cfg.cmd (BitVec.ofNat 8 slot) c family status (BitVec.ofNat 8 idx :: encValue d.fmt v))
        = .decoded slot [(idx, v)]
      ∧ (idx ≠ s.cfg.regmap.crcValue → (s.commit slot [(idx, v)]).read slot idx = some v)
      ∧ (idx = s.cfg.regmap.crcValue → s.commit slot [(idx, v)] = s)

/-! ## Ports -/

/-- 30_encoding.md R141, R161, 40_crc.md R182: with CMD injective, the decoder gives every instruction back from its
request. The form of the requests of the codec is the opcode table's (log 3). -/
def Obligations.DecodeInvertsEncode : Prop :=
  ∀ (cm : CommandMap) (i : Instr), (∀ c c', cm.byte c = cm.byte c' → c = c') → decode cm (encode cm i) = .ok i

/-- 00_scope.md R4, R6, 10_state.md R57, R65, 40_crc.md R181: a step runs the instruction of the next waiting request, on the
state without that request: of one at an internal port, else of the next host operation. With none at an internal port, every
step stays where it is or is a host operation (an instruction of the host port, or an unknown hop), and it leaves none there.
The waiting requests are the model's (log 3). -/
def Obligations.StepRunsTheDecodedInstruction : Prop :=
  ∀ s : State, s.cfg.wf = true →
    (∀ r rest i, s.internal = r :: rest → decode s.cfg.cmd (.internal r) = .ok i →
      step s = exec i { s with internal := rest })
    ∧ (s.internal = [] →
      (∀ req rest i, s.phase = .idle → s.pending = req :: rest → decode s.cfg.cmd (.host req) = .ok i →
        step s = exec i { s with pending := rest })
      ∧ ∀ t, step s = .next t → t.internal = [] ∧ (t = s ∨ ∃ req rest, s.pending = req :: rest
          ∧ ((∃ i, hostRequest i = some req ∧ exec i { s with pending := rest } = .next t)
            ∨ errorEffect { s with pending := rest } t req .unknownOp)))

/-- 30_encoding.md R154, 60_exceptions.md R374: a hop code not in the table ends in Error(E_UNKNOWN_OP): only phase, op and
result change, but for two things that are the model's: the request, served where none waits at an internal port, is taken
from the list of waiting ones (log 3), and the frame buffers are cleared on acceptance (42_bus_master.md R258, 10_state.md R56, against
60_exceptions.md R378: log 9). -/
def Obligations.UnknownHopsFail : Prop :=
  ∀ (s : State) (hop : Byte) (ops : List Operand) (rest : List HostReq),
    s.cfg.wf = true → s.internal = [] → s.phase = .idle → s.pending = ⟨hop, ops⟩ :: rest →
    (hop.toNat = 0 ∨ (0x12 ≤ hop.toNat ∧ hop.toNat ≤ 0x1F) ∨ 0x2A ≤ hop.toNat) →
      ∃ t, step s = .next t ∧ errorEffect { s with pending := rest } t ⟨hop, ops⟩ .unknownOp

/-- 10_state.md R40, R57, R65, 40_crc.md R182: with nothing waiting the engine stays as it is; an ill-formed configuration,
a host operation while phase is not IDLE and CRC port code 0b11 are refused. That these are refusals is the model's (logs 3,
12). -/
def Obligations.StepOtherwiseWaitsOrRefuses : Prop :=
  ∀ s : State,
    (s.cfg.wf = false → step s = .refused .badConfiguration)
    ∧ (s.cfg.wf = true → s.internal = [] → s.pending = [] → step s = .next s)
    ∧ (s.cfg.wf = true → s.internal = [] → s.pending ≠ [] → s.phase ≠ .idle → step s = .refused .portBusy)
    ∧ (∀ b rest, s.cfg.wf = true → s.internal = .crcPort 3#2 b :: rest → step s = .refused .unusedCrcCode)

/-- 30_encoding.md R161, R110, 40_crc.md R182: words of the opcode table, in TP's Command bytes, decode to their rows. -/
def Obligations.TableWordsDecodeToTheirRows : Prop :=
  decodeTableWord 8 0x01 = some (.attach 0 0) ∧ decodeTableWord 8 0x29 = some (.getImu 0 0)
  ∧ decodeTableWord 8 0x12 = none ∧ decodeTableWord 2 0b01 = some (.crcFeed 0)
  ∧ decodeTableWord 40 0x5503000081 = some (.frameWriteAck 3 []) ∧ decodeTableWord 40 0x55FF00000A = some (.frameSyncWrite 0 [])

/-! ## Reset -/

/-- 10_state.md R63, 70_reset_and_hazards.md R401: what reset leaves, for every configuration the block is built with. -/
def Obligations.ResetLeavesTheStatedValues : Prop :=
  ∀ p : Params,
    (State.resetWith p).cfg = p
    ∧ (∀ slot idx, slot < 256 → idx < 256 → (State.resetWith p).read slot idx
        = (p.regmap.find idx).map (fun d => if idx = 1 then .scalar 255
            else if idx = 2 then .scalar p.sentinelFamily.toNat else d.resetValue))
    ∧ (State.resetWith p).baudRate = p.baudInit ∧ (State.resetWith p).settleDelay = 30 / (p.baudInit : Rat)
    ∧ (State.resetWith p).lastScanned = [] ∧ (State.resetWith p).ackSize = 0
    ∧ (State.resetWith p).crcReg = 0xFFFFFFFF#32 ∧ (State.resetWith p).portOpen = true
    ∧ (State.resetWith p).timeoutSel = .normal ∧ (State.resetWith p).phase = .idle ∧ (State.resetWith p).op = none
    ∧ (State.resetWith p).txbuf = [] ∧ (State.resetWith p).rxbuf = [] ∧ (State.resetWith p).result = none
    ∧ (State.resetWith p).trace = []

/-- 70_reset_and_hazards.md R401: the reset state of every well-formed configuration meets the invariant, and so does the
model's `State.reset`, which is built with TP (the model's choice, log 1); no request waits at an internal port (log 3). -/
def Obligations.ResetMeetsTheInvariant : Prop :=
  (∀ p : Params, p.wf = true → Inv (State.resetWith p) ∧ (State.resetWith p).internal = [])
    ∧ Inv State.reset ∧ State.reset.internal = []

/-! ## Device-table operations -/

/-- 42_bus_master.md R250: attach checks the id's range, the broadcast id and the family's range in that order; of an id
0..254 with a family 0..255 it completes with Done, makes the slot's mirror fresh(id, family), and changes no other slot and
no register. -/
def Obligations.AttachInstallsAFreshMirror : Prop :=
  ∀ (s : State) (id family : Int),
    (id < 0 ∨ 255 < id → failsWith (.attach id family) s ⟨0x01#8, [.int id, .int family]⟩ .idRange)
    ∧ (id = 255 → failsWith (.attach id family) s ⟨0x01#8, [.int id, .int family]⟩ .broadcast)
    ∧ (0 ≤ id → id ≤ 254 →
      (family < 0 ∨ 255 < family → failsWith (.attach id family) s ⟨0x01#8, [.int id, .int family]⟩ .valueRange)
      ∧ (0 ≤ family → family ≤ 255 →
        ∃ t, exec (.attach id family) s = .next t ∧ ended t ⟨0x01#8, [.int id, .int family]⟩ .done
          ∧ (∀ idx, idx < 256 → t.read id.toNat idx = (s.cfg.regmap.find idx).map (fun d =>
              if idx = 1 then .scalar id else if idx = 2 then .scalar family else d.resetValue))
          ∧ (∀ slot idx, slot ≠ id.toNat → t.read slot idx = s.read slot idx)
          ∧ t.trace = s.trace ∧ t.ackSize = s.ackSize ∧ t.crcReg = s.crcReg ∧ busKept s t ∧ registersKept s t))

/-- 42_bus_master.md R252: detach checks the id's range only; of an id 0..255 it completes with Done, makes the slot the
sentinel mirror, and changes no other slot and no register. -/
def Obligations.DetachInstallsTheSentinel : Prop :=
  ∀ (s : State) (id : Int),
    (id < 0 ∨ 255 < id → failsWith (.detach id) s ⟨0x02#8, [.int id]⟩ .idRange)
    ∧ (0 ≤ id → id ≤ 255 →
      ∃ t, exec (.detach id) s = .next t ∧ ended t ⟨0x02#8, [.int id]⟩ .done
        ∧ (∀ idx, idx < 256 → t.read id.toNat idx = (s.cfg.regmap.find idx).map (fun d =>
            if idx = 1 then .scalar 255 else if idx = 2 then .scalar s.cfg.sentinelFamily.toNat else d.resetValue))
        ∧ (∀ slot idx, slot ≠ id.toNat → t.read slot idx = s.read slot idx)
        ∧ t.trace = s.trace ∧ t.ackSize = s.ackSize ∧ t.crcReg = s.crcReg ∧ busKept s t ∧ registersKept s t)

/-! ## Writes and reads -/

/-- 42_bus_master.md R260, R262, R263: a write without acknowledgment, or to 255, of known, encodable and writable pairs
whose frame fits completes with None: the values are in the mirror (not for 255), one WRITE or WRITE_ACK frame built after
that is sent, and no reply is read. CRCValue is the exception: it is hardwired (10_state.md R64), and that its value goes into
the frame but not into the mirror is the model's reading (log 22). -/
def Obligations.UnacknowledgedWriteSendsOneFrame : Prop :=
  ∀ (s : State) (id : Int) (pairs : List (Int × Value)) (ack : Bool),
    0 ≤ id → id ≤ 255 → s.attached id.toNat = true → s.portOpen = true → pairs ≠ [] →
    (∀ q ∈ pairs, writable s.cfg q.1 q.2) → writeLen s.cfg.regmap pairs ≤ 255 → (ack = false ∨ id = 255) →
    ∃ t, exec (.setVariables id pairs ack) s = .next t
      ∧ ended t ⟨0x03#8, [.int id, .pairs pairs, .bool ack]⟩ .none
      ∧ t.dt = (if id = 255 then s.dt else writeAll s.cfg s.dt id.toNat (pairs.map (fun q => (q.1.toNat, q.2))))
      ∧ sentOne s t (requestFrame t id.toNat (if ack then .writeAck else .write) (writePayload s.cfg.regmap pairs))
          (if ack then writeLen s.cfg.regmap pairs else 0)
      ∧ registersKept s t

/-- 42_bus_master.md R260, R262, R263, R280: an acknowledged unicast write completes: pre-write, one WRITE_ACK frame, one
read of as many bytes, and the outcome of the reply over the pre-written mirrors. CRCValue is the exception: it is hardwired
(10_state.md R64), and that neither the pre-write nor the reply changes it, so that Values holds its reset value, is the
model's reading (log 22). -/
def Obligations.AcknowledgedWriteReadsTheEcho : Prop :=
  ∀ (s : State) (id : Int) (pairs : List (Int × Value)), s.cfg.wf = true → s.ready id → pairs ≠ [] →
    (∀ q ∈ pairs, writable s.cfg q.1 q.2) → writeLen s.cfg.regmap pairs ≤ 255 →
    ∃ t, exec (.setVariables id pairs true) s = .next t
      ∧ t.op = some ⟨0x03#8, [.int id, .pairs pairs, .bool true]⟩
      ∧ exchanged s t
          (requestFrame { s with dt := writeAll s.cfg s.dt id.toNat (pairs.map (fun q => (q.1.toNat, q.2))) } id.toNat
            .writeAck (writePayload s.cfg.regmap pairs))
          (writeLen s.cfg.regmap pairs) (s.answer (writeLen s.cfg.regmap pairs))
      ∧ replyOutcome t s.cfg (writeAll s.cfg s.dt id.toNat (pairs.map (fun q => (q.1.toNat, q.2)))) id.toNat
          (pairs.map (·.1)) (writeLen s.cfg.regmap pairs) (s.answer (writeLen s.cfg.regmap pairs))
      ∧ registersKept s t

/-- 42_bus_master.md R266, R267, R280: get_variables of known indices whose frame and reply fit completes: one READ frame,
one read of the expected size, and the outcome of the reply. CRCValue is the exception: it is hardwired (10_state.md R64),
and that a value the reply carries for it is discarded, so that Values holds its reset value, is the model's reading
(log 22). -/
def Obligations.ReadDecodesTheReply : Prop :=
  ∀ (s : State) (id : Int) (indices : List Int), s.cfg.wf = true → s.ready id → indices ≠ [] →
    (∀ i ∈ indices, (s.cfg.regmap.findInt i).isSome = true) → readLen indices ≤ 255 →
    readAckLen s.cfg.regmap indices ≤ 255 →
    ∃ t, exec (.getVariables id indices) s = .next t
      ∧ t.op = some ⟨0x04#8, [.int id, .ints indices]⟩
      ∧ exchanged s t (requestFrame s id.toNat .read (readPayload indices)) (readAckLen s.cfg.regmap indices)
          (s.answer (readAckLen s.cfg.regmap indices))
      ∧ replyOutcome t s.cfg s.dt id.toNat indices (readAckLen s.cfg.regmap indices)
          (s.answer (readAckLen s.cfg.regmap indices))
      ∧ registersKept s t

/-- 42_bus_master.md R268: a synchronized write of a known index to unicast ids, attached or not, completes with None: one
broadcast SYNC_WRITE frame, no mirror written, no reply read. -/
def Obligations.SyncWriteSendsOneBroadcast : Prop :=
  ∀ (s : State) (index : Int) (groups : List (Int × Value)), s.portOpen = true → groups ≠ [] →
    (∀ q ∈ groups, 0 ≤ q.1 ∧ q.1 ≤ 254 ∧ writable s.cfg index q.2) → syncLen s.cfg.regmap index groups ≤ 255 →
    ∃ t, exec (.setVariablesSync index groups) s = .next t
      ∧ ended t ⟨0x05#8, [.int index, .pairs groups]⟩ .none ∧ t.dt = s.dt
      ∧ sentOne s t (requestFrame s 255 .syncWrite (syncPayload s.cfg.regmap index groups)) 0
      ∧ registersKept s t

/-! ## Header-only commands -/

/-- 42_bus_master.md R270, R271, R273, R274: reboot, hard_reset, tune and reset_encoder check the id's range, the broadcast
id, the attachment and the port in that order, and of an attached id complete with Done: one ten-byte frame of their
Command, no reply read, no mirror written. -/
def Obligations.PlainCommandsSendOneFrame : Prop :=
  ∀ (s : State) (id : Int),
    ∀ e ∈ [(Instr.reboot id, (⟨0x07#8, [.int id]⟩ : HostReq), Command.reboot),
        (.hardReset id, ⟨0x08#8, [.int id]⟩, .hardReset), (.tune id, ⟨0x0A#8, [.int id]⟩, .tune),
        (.resetEncoder id, ⟨0x0B#8, [.int id]⟩, .resetEnc)],
      unicastChecks e.1 s e.2.1 id
      ∧ (s.ready id → ∃ t, exec e.1 s = .next t ∧ ended t e.2.1 .done ∧ t.dt = s.dt
          ∧ sentOne s t (hdrFrame s id.toNat e.2.2) 0 ∧ registersKept s t)

/-- 42_bus_master.md R269: ping makes the same checks, and of an attached id completes with Bool: one ten-byte frame, one
read of ten bytes, true exactly where ten bytes with a matching CRC come back; no mirror is written. -/
def Obligations.PingAnswersBool : Prop :=
  ∀ (s : State) (id : Int),
    unicastChecks (.ping id) s ⟨0x06#8, [.int id]⟩ id
    ∧ (s.ready id → ∃ t, exec (.ping id) s = .next t
        ∧ ended t ⟨0x06#8, [.int id]⟩ (.bool (accepted 10 (s.answer 10))) ∧ t.dt = s.dt
        ∧ exchanged s t (hdrFrame s id.toNat .ping) 10 (s.answer 10) ∧ registersKept s t)

/-- 42_bus_master.md R272: eeprom_write makes the same checks, and of an attached id completes: without acknowledgment with
Done and one EEPROM_WRITE frame, with it with Bool of the reply to one EEPROM_WRITE_ACK frame; no mirror is written. -/
def Obligations.EepromWriteSendsOneFrame : Prop :=
  ∀ (s : State) (id : Int),
    (∀ ack, unicastChecks (.eepromWrite id ack) s ⟨0x09#8, [.int id, .bool ack]⟩ id)
    ∧ (s.ready id →
      (∃ t, exec (.eepromWrite id false) s = .next t ∧ ended t ⟨0x09#8, [.int id, .bool false]⟩ .done ∧ t.dt = s.dt
        ∧ sentOne s t (hdrFrame s id.toNat .eepromWrite) 0 ∧ registersKept s t)
      ∧ ∃ t, exec (.eepromWrite id true) s = .next t
        ∧ ended t ⟨0x09#8, [.int id, .bool true]⟩ (.bool (accepted 10 (s.answer 10))) ∧ t.dt = s.dt
        ∧ exchanged s t (hdrFrame s id.toNat .eepromWriteAck) 10 (s.answer 10) ∧ registersKept s t)

/-- 42_bus_master.md R275: enter_bootloader makes the same checks, and of an attached id completes with Done: one BL_JUMP
frame, then the port is closed; no mirror is written. -/
def Obligations.EnterBootloaderClosesThePort : Prop :=
  ∀ (s : State) (id : Int),
    unicastChecks (.enterBootloader id) s ⟨0x0C#8, [.int id]⟩ id
    ∧ (s.ready id →
      ∃ t, exec (.enterBootloader id) s = .next t ∧ ended t ⟨0x0C#8, [.int id]⟩ .done ∧ t.dt = s.dt
        ∧ t.txbuf = hdrFrame s id.toNat .blJump ∧ t.ackSize = 0
        ∧ t.trace = s.trace ++ [.tx (hdrFrame s id.toNat .blJump), .settle s.baudRate, .closePort]
        ∧ t.portOpen = false ∧ busKept s t ∧ registersKept { s with portOpen := false } t)

/-! ## Discovery -/

/-- 42_bus_master.md R300, R301: scan fails on a closed port; on an open port it completes: it probes the ids 0..254 in
order, one read each; the result and `last_scanned` are the ids whose read gave ten bytes with a matching CRC, strictly
increasing; those slots hold fresh(id, P_SCAN_FAMILY), every other slot 0..254 the sentinel, and slot 255 is not touched. -/
def Obligations.ScanProbesEveryId : Prop :=
  ∀ s : State,
    (s.portOpen = false → failsWith .scan s ⟨0x0D#8, []⟩ .portClosed)
    ∧ (s.cfg.wf = true → s.portOpen = true →
    ∃ t found, exec .scan s = .next t ∧ found = (List.range 255).filter (fun id => accepted 10 (s.answerAt id 10))
      ∧ ended t ⟨0x0D#8, []⟩ (.ids found) ∧ t.lastScanned = found
      ∧ (∀ id idx, id < 255 → idx < 256 → t.read id idx = (s.cfg.regmap.find idx).map (fun d =>
          if idx = 1 then .scalar (if id ∈ found then (id : Int) else 255)
          else if idx = 2 then .scalar (if id ∈ found then s.cfg.scanFamily.toNat else s.cfg.sentinelFamily.toNat : Nat)
          else d.resetValue))
      ∧ (∀ idx, t.read 255 idx = s.read 255 idx)
      ∧ t.busReplies = s.busReplies.drop 255 ∧ t.busReads = s.busReads + 255
      ∧ t.ackSize = 10 ∧ registersKept { s with lastScanned := found, timeoutSel := .normal } t)

/-- 42_bus_master.md R300: the transport events of scan: the scan timeout, then for each id 0..254 its ping frame, the
settle delay and the read, then the normal timeout. -/
def Obligations.ScanEventsInOrder : Prop :=
  ∀ (s t : State) (st : Byte) (d : Descriptor), s.cfg.wf = true → s.portOpen = true →
    s.cfg.regmap.find 5 = some d → d.resetValue = .scalar st.toNat → exec .scan s = .next t →
      t.trace = s.trace ++ [.timeout .scan]
        ++ (List.range 255).flatMap (fun id =>
            [.tx (buildFrame s.cfg.cmd (BitVec.ofNat 8 id) .ping s.cfg.scanFamily st []), .settle s.baudRate,
             .rx 10 (s.answerAt id 10)])
        ++ [.timeout .normal]

/-- 42_bus_master.md R310: scan_modules checks the id's range, the broadcast id, the attachment and the port in that order,
and of an attached id completes: two MODULE_SCAN frames with the warm-up delay between them, one read of 18 bytes, and the
indices of the mask, or None for a short or corrupt reply; no mirror is written. -/
def Obligations.ScanModulesReadsTheMask : Prop :=
  ∀ (s : State) (id : Int),
    unicastChecks (.scanModules id) s ⟨0x0E#8, [.int id]⟩ id
    ∧ (s.ready id →
      ∃ t, exec (.scanModules id) s = .next t
        ∧ ended t ⟨0x0E#8, [.int id]⟩ (if accepted 18 (s.answer 18)
            then .indices (modmap s.cfg.bank (leValue (((s.answer 18).take 14).drop 6))) else .none)
        ∧ t.dt = s.dt ∧ t.txbuf = hdrFrame s id.toNat .moduleScan ∧ t.rxbuf = s.answer 18 ∧ t.ackSize = 18
        ∧ t.trace = s.trace ++ [.tx (hdrFrame s id.toNat .moduleScan), .settle s.baudRate, .delay .warmup,
            .tx (hdrFrame s id.toNat .moduleScan), .settle s.baudRate, .rx 18 (s.answer 18)]
        ∧ t.busReplies = s.busReplies.tail ∧ t.busReads = s.busReads + 1 ∧ registersKept s t)

/-- 42_bus_master.md R311, 30_encoding.md R153: the module map is, in ascending bit order, BASE[k] + (i - 5k) for each set
bit i of 0..49, k the kind whose bits contain i; the bits 50..63 are ignored. -/
def Obligations.ModuleMapFollowsTheBits : Prop :=
  ∀ (bk : Banks) (mask : Nat),
    modmap bk mask = ((List.range 50).filter (fun i => mask.testBit i)).map (fun i =>
      bk.base (allKinds.getD (i / 5) .button) + (i - 5 * (i / 5)))

/-- 20_memory.md R84, R86 (R86 is marked as the spec's inference from R84): bit i of a little-endian integer is bit i mod 8
of its byte i / 8. -/
def Obligations.MaskBitsAreBytesBits : Prop :=
  ∀ (L : List Byte) (i : Nat), (leValue L).testBit i = (L.getD (i / 8) 0#8).getLsbD (i % 8)

/-! ## Baud rate -/

/-- 42_bus_master.md R320: update_master_baudrate fails outside 3053..12500000; of a legal rate it completes with Done, on
an open or a closed port: the five port events, the rate, the settle delay and the open port; no mirror is written and no
frame is sent. -/
def Obligations.MasterBaudReopensThePort : Prop :=
  ∀ (s : State) (baud : Int),
    (baud < 3053 ∨ 12500000 < baud → failsWith (.updateMasterBaudrate baud) s ⟨0x10#8, [.int baud]⟩ .baudRange)
    ∧ (3053 ≤ baud → baud ≤ 12500000 →
      ∃ t, exec (.updateMasterBaudrate baud) s = .next t ∧ ended t ⟨0x10#8, [.int baud]⟩ .done
        ∧ t.trace = s.trace ++ [.resetIn, .resetOut, .closePort, .apply baud.toNat, .openPort]
        ∧ (t.baudRate : Int) = baud ∧ t.settleDelay = 30 / (baud : Rat) ∧ t.portOpen = true
        ∧ t.dt = s.dt ∧ t.ackSize = s.ackSize ∧ t.crcReg = s.crcReg ∧ busKept s t
        ∧ registersKept { s with baudRate := t.baudRate, settleDelay := t.settleDelay, portOpen := true } t)

/-- 42_bus_master.md R321: update_driver_baudrate makes its checks in order, the BaudRate descriptor's among them; of an
attached id and a legal rate that the descriptor takes it completes with Done: the rate is written into the mirror, and the
WRITE, EEPROM_WRITE and REBOOT frames are sent, each with its settle delay; the master's own rate is not changed. -/
def Obligations.DriverBaudSendsThreeFrames : Prop :=
  ∀ (s : State) (id baud : Int),
    let fails := failsWith (.updateDriverBaudrate id baud) s ⟨0x11#8, [.int id, .int baud]⟩
    (id < 0 ∨ 255 < id → fails .idRange) ∧ (id = 255 → fails .broadcast)
    ∧ (0 ≤ id → id ≤ 254 →
      (s.attached id.toNat = false → fails .notAttached)
      ∧ (s.attached id.toNat = true →
        (baud < 3053 ∨ 12500000 < baud → fails .baudRange)
        ∧ (3053 ≤ baud → baud ≤ 12500000 →
          (∀ d, s.cfg.regmap.find s.cfg.regmap.baudRate = some d → shapeOk d.fmt (.scalar baud) = true →
            (fieldsInDomain d.fmt [baud] = false → fails .valueRange)
            ∧ (fieldsInDomain d.fmt [baud] = true → s.cfg.enforceMutable = true → d.isMutable = false → fails .readOnly))
          ∧ (writable s.cfg s.cfg.regmap.baudRate (.scalar baud) → s.portOpen = false → fails .portClosed))))
    ∧ (s.ready id → 3053 ≤ baud → baud ≤ 12500000 → writable s.cfg s.cfg.regmap.baudRate (.scalar baud) →
      ∃ t, exec (.updateDriverBaudrate id baud) s = .next t ∧ ended t ⟨0x11#8, [.int id, .int baud]⟩ .done
        ∧ t.dt = writeAll s.cfg s.dt id.toNat [(s.cfg.regmap.baudRate, .scalar baud)]
        ∧ t.trace = s.trace
          ++ [.tx (requestFrame t id.toNat .write (writePayload s.cfg.regmap [((s.cfg.regmap.baudRate : Int), .scalar baud)])),
            .settle s.baudRate, .tx (hdrFrame t id.toNat .eepromWrite), .settle s.baudRate,
            .tx (hdrFrame t id.toNat .reboot), .settle s.baudRate]
        ∧ t.txbuf = hdrFrame t id.toNat .reboot ∧ t.ackSize = 0 ∧ busKept s t ∧ registersKept s t)

/-! ## Peripheral accessors -/

/-- 43_peripherals.md R332, R333, R335, R336, R337, R339, R341: each getter of a module 1..5 of an attached id completes
with the effect of get_variables of the Index BASE[k] + m - 1, its value unchanged but for get_qtr, which gives the three
low bits. -/
def Obligations.GettersReadTheirModule : Prop :=
  ∀ (s : State) (id m : Int), s.cfg.wf = true → s.ready id → 1 ≤ m → m ≤ 5 →
    (∀ k, readAckLen s.cfg.regmap [(s.cfg.bank.base k : Int) + (m - 1)] ≤ 255) →
    readsModule s (.getButton id m) ⟨0x20#8, [.int id, .int m]⟩ id m .button (fun v => v)
    ∧ readsModule s (.getLight id m) ⟨0x21#8, [.int id, .int m]⟩ id m .light (fun v => v)
    ∧ readsModule s (.getJoystick id m) ⟨0x23#8, [.int id, .int m]⟩ id m .joystick (fun v => v)
    ∧ readsModule s (.getDistance id m) ⟨0x24#8, [.int id, .int m]⟩ id m .distance (fun v => v)
    ∧ readsModule s (.getQtr id m) ⟨0x25#8, [.int id, .int m]⟩ id m .qtr (qtrValue s.cfg.qtrOrder)
    ∧ readsModule s (.getPotentiometer id m) ⟨0x27#8, [.int id, .int m]⟩ id m .potentiometer (fun v => v)
    ∧ readsModule s (.getImu id m) ⟨0x29#8, [.int id, .int m]⟩ id m .imu (fun v => v)

/-- 43_peripherals.md R334, R338, R340: each setter of a module 1..5 of an attached id 0..254 completes with the effect of an
unacknowledged set_variables of the Index BASE[k] + m - 1: set_servo of a value 0..255, set_rgb of channels 0..255 packed as
r + 256 g + 65536 b. Of id 255 a setter fails, as AccessorChecksComeFirst states, by the model's reading (log 23). -/
def Obligations.SettersWriteTheirModule : Prop :=
  ∀ (s : State) (id m : Int), s.ready id → 1 ≤ m → m ≤ 5 →
    (∀ v : Value, writable s.cfg ((s.cfg.bank.base .buzzer : Int) + (m - 1)) v →
      writeLen s.cfg.regmap [((s.cfg.bank.base .buzzer : Int) + (m - 1), v)] ≤ 255 →
      writesModule s (.setBuzzer id m v) ⟨0x22#8, [.int id, .int m, .value v]⟩ id m .buzzer v)
    ∧ (∀ v : Int, 0 ≤ v → v ≤ 255 → writable s.cfg ((s.cfg.bank.base .servo : Int) + (m - 1)) (.scalar v) →
      writesModule s (.setServo id m v) ⟨0x26#8, [.int id, .int m, .int v]⟩ id m .servo (.scalar v))
    ∧ (∀ r g b : Int, 0 ≤ r → r ≤ 255 → 0 ≤ g → g ≤ 255 → 0 ≤ b → b ≤ 255 →
      writable s.cfg ((s.cfg.bank.base .rgb : Int) + (m - 1)) (.scalar (r + g * 256 + b * 65536)) →
      writesModule s (.setRgb id m r g b) ⟨0x28#8, [.int id, .int m, .int r, .int g, .int b]⟩ id m .rgb
        (.scalar (r + g * 256 + b * 65536)))

/-- 43_peripherals.md R345: get_driver_info passes on each error of get_variables of HardwareVersion and SoftwareVersion; of
an attached id it completes with that operation's effect, two values replaced by the triples of their three low bytes, any
other result unchanged. -/
def Obligations.DriverInfoReadsTheVersions : Prop :=
  ∀ (s : State) (id : Int),
    (∀ err, failsWith (.getVariables id [(s.cfg.regmap.hardwareVersion : Int), (s.cfg.regmap.softwareVersion : Int)]) s
          ⟨0x04#8, [.int id, .ints [(s.cfg.regmap.hardwareVersion : Int), (s.cfg.regmap.softwareVersion : Int)]]⟩ err →
        failsWith (.getDriverInfo id) s ⟨0x0F#8, [.int id]⟩ err)
    ∧ (s.cfg.wf = true → s.ready id →
      ∃ t r r', exec (.getVariables id [(s.cfg.regmap.hardwareVersion : Int), (s.cfg.regmap.softwareVersion : Int)]) s = .next t
        ∧ t.result = some r ∧ (∀ e, r ≠ .error e)
        ∧ (∀ a b : Int, r = .values [.scalar a, .scalar b] → r' = .versions
            (BitVec.ofInt 8 a, BitVec.ofInt 8 (a / 256), BitVec.ofInt 8 (a / 65536))
            (BitVec.ofInt 8 b, BitVec.ofInt 8 (b / 256), BitVec.ofInt 8 (b / 65536)))
        ∧ ((∀ v w, r ≠ .values [v, w]) → r' = r)
        ∧ exec (.getDriverInfo id) s = .next { t with op := some ⟨0x0F#8, [.int id]⟩, result := some r' })

/-! ## Errors -/

/-- 60_exceptions.md R378: a host operation that ends in an error has changed nothing but phase, op and result (and cleared
the frame buffers on acceptance, 10_state.md R56: the model's reading, log 9). -/
def Obligations.ErrorsHaveNoOtherEffect : Prop :=
  ∀ (s t : State) (i : Instr) (req : HostReq) (e : ErrorCode),
    hostRequest i = some req → exec i s = .next t → t.result = some (.error e) → errorEffect s t req e

/-- 60_exceptions.md R360, 42_bus_master.md R258, R259: every host operation ends, in every state: latched in op, with a
result, in IDLE, its trace extended. -/
def Obligations.EveryHostOperationEnds : Prop :=
  ∀ (s : State) (i : Instr) (req : HostReq), hostRequest i = some req →
    ∃ t es, exec i s = .next t ∧ t.op = some req ∧ t.result.isSome = true ∧ t.phase = .idle ∧ t.trace = s.trace ++ es

/-- 42_bus_master.md R258: the phases a host operation passes, from IDLE back to IDLE, are transitions of the rule (the list
of phases is the model's own observation, log 7). -/
def Obligations.PhasesFollowTheSequence : Prop :=
  ∀ (s t : State) (i : Instr) (req : HostReq), hostRequest i = some req → exec i s = .next t →
    phasesOk (.idle :: t.phasePath) = true ∧ t.phasePath.getLast? = some .idle

/-- 60_exceptions.md R377: the errors of set_variables, first failing check first. -/
def Obligations.WriteChecksInOrder : Prop :=
  ∀ (s : State) (id : Int) (pairs : List (Int × Value)) (ack : Bool),
    let fails := failsWith (.setVariables id pairs ack) s ⟨0x03#8, [.int id, .pairs pairs, .bool ack]⟩
    (id < 0 ∨ 255 < id → fails .idRange)
    ∧ (0 ≤ id → id ≤ 255 →
      (s.attached id.toNat = false → fails .notAttached)
      ∧ (s.attached id.toNat = true →
        (pairs = [] → fails .empty)
        ∧ (∀ before i v after, pairs = before ++ (i, v) :: after → (∀ q ∈ before, writable s.cfg q.1 q.2) →
            (s.cfg.regmap.findInt i = none → fails .unknownIndex)
            ∧ ∀ d, s.cfg.regmap.findInt i = some d →
              (shapeOk d.fmt v = false → fails .shape)
              ∧ (shapeOk d.fmt v = true → fieldsInDomain d.fmt v.fields = false → fails .valueRange)
              ∧ (fits d.fmt v = true → s.cfg.enforceMutable = true → d.isMutable = false → fails .readOnly))
        ∧ (pairs ≠ [] → (∀ q ∈ pairs, writable s.cfg q.1 q.2) →
            (255 < writeLen s.cfg.regmap pairs → fails .frameTooLong)
            ∧ (writeLen s.cfg.regmap pairs ≤ 255 → s.portOpen = false → fails .portClosed))))

/-- 60_exceptions.md R377: the errors of get_variables, first failing check first. -/
def Obligations.ReadChecksInOrder : Prop :=
  ∀ (s : State) (id : Int) (indices : List Int),
    let fails := failsWith (.getVariables id indices) s ⟨0x04#8, [.int id, .ints indices]⟩
    (id < 0 ∨ 255 < id → fails .idRange) ∧ (id = 255 → fails .broadcast)
    ∧ (0 ≤ id → id ≤ 254 →
      (s.attached id.toNat = false → fails .notAttached)
      ∧ (s.attached id.toNat = true →
        (indices = [] → fails .empty)
        ∧ ((∃ i ∈ indices, s.cfg.regmap.findInt i = none) → fails .unknownIndex)
        ∧ (indices ≠ [] → (∀ i ∈ indices, (s.cfg.regmap.findInt i).isSome = true) →
            (255 < readLen indices ∨ 255 < readAckLen s.cfg.regmap indices → fails .frameTooLong)
            ∧ (readLen indices ≤ 255 → readAckLen s.cfg.regmap indices ≤ 255 → s.portOpen = false →
                fails .portClosed))))

/-- 60_exceptions.md R377: the errors of set_variables_sync, first failing check first. -/
def Obligations.SyncChecksInOrder : Prop :=
  ∀ (s : State) (index : Int) (groups : List (Int × Value)),
    let fails := failsWith (.setVariablesSync index groups) s ⟨0x05#8, [.int index, .pairs groups]⟩
    (s.cfg.regmap.findInt index = none → fails .unknownIndex)
    ∧ ∀ d, s.cfg.regmap.findInt index = some d →
      (groups = [] → fails .empty)
      ∧ (∀ before g v after, groups = before ++ (g, v) :: after →
          (∀ q ∈ before, 0 ≤ q.1 ∧ q.1 ≤ 254 ∧ writable s.cfg index q.2) →
          (g < 0 ∨ 255 < g → fails .idRange) ∧ (g = 255 → fails .broadcast)
          ∧ (0 ≤ g → g ≤ 254 →
            (shapeOk d.fmt v = false → fails .shape)
            ∧ (shapeOk d.fmt v = true → fieldsInDomain d.fmt v.fields = false → fails .valueRange)
            ∧ (fits d.fmt v = true → s.cfg.enforceMutable = true → d.isMutable = false → fails .readOnly)))
      ∧ (groups ≠ [] → (∀ q ∈ groups, 0 ≤ q.1 ∧ q.1 ≤ 254 ∧ writable s.cfg index q.2) →
          (255 < syncLen s.cfg.regmap index groups → fails .frameTooLong)
          ∧ (syncLen s.cfg.regmap index groups ≤ 255 → s.portOpen = false → fails .portClosed))

/-- 43_peripherals.md R330, R338, R340: an accessor's module identifier is checked before anything else, then the ranges of
set_servo and set_rgb, and only then what the expanded operation checks, whose error it passes on. A setter of id 255 fails
with E_BROADCAST before the expansion's checks, by 60_exceptions.md R363 (with 20_memory.md R82 and 42_bus_master.md R253),
which the model follows against 43_peripherals.md R331 (log 23). -/
def Obligations.AccessorChecksComeFirst : Prop :=
  ∀ (s : State) (id m v r g b : Int) (w : Value),
    (m < 1 ∨ 5 < m →
      (∀ e ∈ [(Instr.getButton id m, (0x20#8 : Byte)), (.getLight id m, 0x21#8), (.getJoystick id m, 0x23#8),
          (.getDistance id m, 0x24#8), (.getQtr id m, 0x25#8), (.getPotentiometer id m, 0x27#8), (.getImu id m, 0x29#8)],
        failsWith e.1 s ⟨e.2, [.int id, .int m]⟩ .moduleId)
      ∧ failsWith (.setBuzzer id m w) s ⟨0x22#8, [.int id, .int m, .value w]⟩ .moduleId
      ∧ failsWith (.setServo id m v) s ⟨0x26#8, [.int id, .int m, .int v]⟩ .moduleId
      ∧ failsWith (.setRgb id m r g b) s ⟨0x28#8, [.int id, .int m, .int r, .int g, .int b]⟩ .moduleId)
    ∧ (1 ≤ m → m ≤ 5 →
      (v < 0 ∨ 255 < v → failsWith (.setServo id m v) s ⟨0x26#8, [.int id, .int m, .int v]⟩ .valueRange)
      ∧ ((r < 0 ∨ 255 < r) ∨ (g < 0 ∨ 255 < g) ∨ (b < 0 ∨ 255 < b) →
          failsWith (.setRgb id m r g b) s ⟨0x28#8, [.int id, .int m, .int r, .int g, .int b]⟩ .valueRange)
      ∧ (id = 255 →
          failsWith (.setBuzzer id m w) s ⟨0x22#8, [.int id, .int m, .value w]⟩ .broadcast
          ∧ (0 ≤ v → v ≤ 255 → failsWith (.setServo id m v) s ⟨0x26#8, [.int id, .int m, .int v]⟩ .broadcast)
          ∧ (0 ≤ r → r ≤ 255 → 0 ≤ g → g ≤ 255 → 0 ≤ b → b ≤ 255 →
              failsWith (.setRgb id m r g b) s ⟨0x28#8, [.int id, .int m, .int r, .int g, .int b]⟩ .broadcast))
      ∧ (id ≠ 255 → ∀ k u err, failsWith (.setVariables id [((s.cfg.bank.base k : Int) + (m - 1), u)] false) s
            ⟨0x03#8, [.int id, .pairs [((s.cfg.bank.base k : Int) + (m - 1), u)], .bool false]⟩ err →
          (k = .buzzer → failsWith (.setBuzzer id m u) s ⟨0x22#8, [.int id, .int m, .value u]⟩ err)
          ∧ (k = .servo → 0 ≤ v → v ≤ 255 → u = .scalar v →
              failsWith (.setServo id m v) s ⟨0x26#8, [.int id, .int m, .int v]⟩ err)
          ∧ (k = .rgb → 0 ≤ r → r ≤ 255 → 0 ≤ g → g ≤ 255 → 0 ≤ b → b ≤ 255 → u = .scalar (r + g * 256 + b * 65536) →
              failsWith (.setRgb id m r g b) s ⟨0x28#8, [.int id, .int m, .int r, .int g, .int b]⟩ err))
      ∧ (∀ k, ∀ e ∈ [(Instr.getButton id m, (0x20#8 : Byte), ModuleKind.button), (.getLight id m, 0x21#8, .light),
            (.getJoystick id m, 0x23#8, .joystick), (.getDistance id m, 0x24#8, .distance), (.getQtr id m, 0x25#8, .qtr),
            (.getPotentiometer id m, 0x27#8, .potentiometer), (.getImu id m, 0x29#8, .imu)], e.2.2 = k →
          ∀ err, failsWith (.getVariables id [(s.cfg.bank.base k : Int) + (m - 1)]) s
              ⟨0x04#8, [.int id, .ints [(s.cfg.bank.base k : Int) + (m - 1)]]⟩ err →
            failsWith e.1 s ⟨e.2.1, [.int id, .int m]⟩ err))

/-- 42_bus_master.md R256, 70_reset_and_hazards.md R414: with the port closed, every host operation but attach, detach and
update_master_baudrate ends in an error, and appends no event. -/
def Obligations.ClosedPortSendsNothing : Prop :=
  ∀ (s t : State) (i : Instr) (req : HostReq), s.portOpen = false → hostRequest i = some req → exec i s = .next t →
    (∀ id family, i ≠ .attach id family) → (∀ id, i ≠ .detach id) → (∀ baud, i ≠ .updateMasterBaudrate baud) →
      (∃ e, t.result = some (.error e)) ∧ t.trace = s.trace ∧ t.portOpen = false

/-! ## Who writes what -/

/-- 10_state.md R48, R50, R53, R30: over every instruction, only update_master_baudrate writes the baud rate and the settle
delay, only scan writes last_scanned, only enter_bootloader closes the port and only update_master_baudrate opens it, and
nothing writes the configuration. -/
def Obligations.EngineRegistersHaveOneWriter : Prop :=
  ∀ (s t : State) (i : Instr), exec i s = .next t →
    t.cfg = s.cfg
    ∧ ((∀ b, i ≠ .updateMasterBaudrate b) → t.baudRate = s.baudRate ∧ t.settleDelay = s.settleDelay
        ∧ (s.portOpen = false → t.portOpen = false))
    ∧ ((∀ id, i ≠ .enterBootloader id) → s.portOpen = true → t.portOpen = true)
    ∧ (i ≠ .scan → t.lastScanned = s.lastScanned ∧ t.timeoutSel = s.timeoutSel)

/-- 10_state.md R44: over every instruction, only attach, detach, scan, the writes, the reads and update_driver_baudrate can
change a mirror; the header-only commands, scan_modules, set_variables_sync, the codec and the CRC port cannot. -/
def Obligations.OtherInstructionsKeepEveryMirror : Prop :=
  ∀ (s t : State) (i : Instr) (id b : Int) (ack : Bool) (gs : List (Int × Value)),
    (i ∈ [Instr.setVariablesSync b gs, .ping id, .reboot id, .hardReset id, .eepromWrite id ack, .tune id, .resetEncoder id,
        .enterBootloader id, .scanModules id, .updateMasterBaudrate b] ∨ hostRequest i = none) →
    exec i s = .next t → t.dt = s.dt

/-! ## Invariants -/

/-- 10_state.md R42, R43, R47, R64 (R47 is marked as derived by the spec; the canonical form is the model's, log 5): every
step keeps the device table in canonical form, every value in its format, slot 255 the sentinel, and CRCValue, which is
hardwired (log 22), at its REGMAP reset value in every slot. -/
def Obligations.StepKeepsTheTableInvariant : Prop :=
  ∀ s t : State, TableInv s → step s = .next t →
    TableInv t
    ∧ ∀ slot, slot < 256 →
        t.read slot t.cfg.regmap.crcValue = (t.cfg.regmap.find t.cfg.regmap.crcValue).map (·.resetValue)

/-- 10_state.md R48 to R51, R54, R55: every step keeps the engine registers legal: the baud rate in its range with its
settle delay, last_scanned strictly increasing, the acknowledgment size a byte, the normal timeout, and IDLE. -/
def Obligations.StepKeepsTheEngineInvariant : Prop :=
  ∀ s t : State, EngineInv s → step s = .next t → EngineInv t

/-- 20_memory.md R95, R98, 30_encoding.md R152, 41_codec.md R205: every step keeps the transport discipline of the whole
trace: every frame sent is sealed and keeps the broadcast restriction, is followed at once by its settle delay, and is sent
on an open port. -/
def Obligations.StepKeepsTheTraceInvariant : Prop :=
  ∀ s t : State, TraceInv s → step s = .next t → TraceInv t
end

