-- ==== Sys2Proof/Laws/Config.lean ====
section
/-! SUPPORT. What a well-formed configuration gives (10_state.md R33 to R40, 30_encoding.md R141), and lookup in REGMAP. -/

namespace Sys2Proof

theorem distinct_iff_nodup {α : Type} [BEq α] [LawfulBEq α] (l : List α) : distinct l = true ↔ l.Nodup := by
  induction l with
  | nil => simp [distinct]
  | cons a l ih => simp [distinct, ih]

/-! ## Lookup -/

theorem RegMap.index_of_find {rm : RegMap} {idx : Nat} {d : Descriptor} (h : rm.find idx = some d) : d.index = idx := by
  simpa using List.find?_some h

theorem RegMap.mem_of_find {rm : RegMap} {idx : Nat} {d : Descriptor} (h : rm.find idx = some d) :
    d ∈ rm.descriptors := List.mem_of_find?_eq_some h

theorem RegMap.findInt_eq_some_iff {rm : RegMap} {i : Int} {d : Descriptor} :
    rm.findInt i = some d ↔ 0 ≤ i ∧ rm.find i.toNat = some d := by
  cases i with
  | ofNat n => simp [RegMap.findInt]
  | negSucc n => simp [RegMap.findInt]

@[simp] theorem RegMap.findInt_natCast (rm : RegMap) (n : Nat) : rm.findInt (n : Int) = rm.find n := rfl

/-! ## Well-formed configurations -/

theorem Params.regmap_wf {p : Params} (h : p.wf = true) : p.regmap.wf p.bank = true := by
  simp only [Params.wf, Bool.and_eq_true] at h
  exact h.1

theorem Params.bank_wf {p : Params} (h : p.wf = true) : p.bank.wf p.regmap = true := by
  simp only [Params.wf, Bool.and_eq_true] at h
  exact h.2.1

/-- No two Commands share a byte (30_encoding.md R141). -/
theorem Params.cmd_injective {p : Params} (h : p.wf = true) : Function.Injective p.cmd.byte := by
  simp only [Params.wf, Bool.and_eq_true] at h
  have hd := h.2.2.1
  rw [distinct_iff_nodup] at hd
  intro c c' hcc
  exact List.inj_on_of_nodup_map hd (by cases c <;> decide) (by cases c' <;> decide) hcc

/-- P_BAUD_INIT is a legal baud rate (00_scope.md R11). -/
theorem Params.baudInit_legal {p : Params} (h : p.wf = true) : baudMin ≤ p.baudInit ∧ p.baudInit ≤ baudMax := by
  simp only [Params.wf, Bool.and_eq_true, decide_eq_true_eq] at h
  exact ⟨h.2.2.2.1, h.2.2.2.2.1⟩

/-- An index of REGMAP is a byte (10_state.md R33). -/
theorem Params.find_lt {p : Params} (h : p.wf = true) {idx : Nat} {d : Descriptor} (hd : p.regmap.find idx = some d) :
    idx < 256 := by
  have hw := Params.regmap_wf h
  simp only [RegMap.wf, Bool.and_eq_true, List.all_eq_true, decide_eq_true_eq] at hw
  have := (hw.1 d (RegMap.mem_of_find hd)).1.1
  rw [RegMap.index_of_find hd] at this
  omega

/-- A format of REGMAP is not empty (10_state.md R33). -/
theorem Params.fmt_ne_nil {p : Params} (h : p.wf = true) {idx : Nat} {d : Descriptor} (hd : p.regmap.find idx = some d) :
    d.fmt ≠ [] := by
  have hw := Params.regmap_wf h
  simp only [RegMap.wf, Bool.and_eq_true, List.all_eq_true, decide_eq_true_eq] at hw
  have := (hw.1 d (RegMap.mem_of_find hd)).1.2
  simpa using this

/-- A reset value is of its descriptor's format (10_state.md R33). -/
theorem Params.fits_reset {p : Params} (h : p.wf = true) {idx : Nat} {d : Descriptor} (hd : p.regmap.find idx = some d) :
    fits d.fmt d.resetValue = true := by
  have hw := Params.regmap_wf h
  simp only [RegMap.wf, Bool.and_eq_true, List.all_eq_true, decide_eq_true_eq] at hw
  exact (hw.1 d (RegMap.mem_of_find hd)).2

theorem RegMap.fmtIs_iff {rm : RegMap} {idx : Nat} {ok : List Prim → Bool} :
    rm.fmtIs idx ok = true ↔ ∃ d, rm.find idx = some d ∧ ok d.fmt = true := by
  unfold RegMap.fmtIs
  cases rm.find idx <;> simp

/-- The six header indices are one-byte unsigned (10_state.md R36). -/
theorem Params.header_fmt {p : Params} (h : p.wf = true) {i : Nat} (hi : i ≤ 5) :
    ∃ d, p.regmap.find i = some d ∧ d.fmt = [.u8] := by
  have hw := Params.regmap_wf h
  simp only [RegMap.wf, Bool.and_eq_true, List.all_eq_true] at hw
  have hm : i ∈ [0, 1, 2, 3, 4, 5] := by simp; omega
  obtain ⟨d, hd, hf⟩ := RegMap.fmtIs_iff.mp (hw.2.2.1 i hm)
  exact ⟨d, hd, by simpa using hf⟩

/-- The format of a header index that is looked up (10_state.md R36). -/
theorem Params.header_fmt_of_find {p : Params} (h : p.wf = true) {i : Nat} (hi : i ≤ 5) {d : Descriptor}
    (hd : p.regmap.find i = some d) : d.fmt = [.u8] := by
  obtain ⟨d', hd', hf⟩ := Params.header_fmt h hi
  rw [hd] at hd'
  cases hd'
  exact hf

theorem isWordFmt_iff {fmt : List Prim} : isWordFmt fmt = true ↔ fmt = [.u32] ∨ fmt = [.i32] := by simp [isWordFmt]

/-- BaudRate has a four-byte integer format (10_state.md R38). -/
theorem Params.baudRate_fmt {p : Params} (h : p.wf = true) :
    ∃ d, p.regmap.find p.regmap.baudRate = some d ∧ (d.fmt = [.u32] ∨ d.fmt = [.i32]) := by
  have hw := Params.regmap_wf h
  simp only [RegMap.wf, Bool.and_eq_true] at hw
  obtain ⟨d, hd, hf⟩ := RegMap.fmtIs_iff.mp hw.2.2.2.2.2.2.2.1
  exact ⟨d, hd, isWordFmt_iff.mp hf⟩

/-- HardwareVersion has a four-byte integer format (10_state.md R38). -/
theorem Params.hardwareVersion_fmt {p : Params} (h : p.wf = true) :
    ∃ d, p.regmap.find p.regmap.hardwareVersion = some d ∧ (d.fmt = [.u32] ∨ d.fmt = [.i32]) := by
  have hw := Params.regmap_wf h
  simp only [RegMap.wf, Bool.and_eq_true] at hw
  obtain ⟨d, hd, hf⟩ := RegMap.fmtIs_iff.mp hw.2.2.2.2.2.1
  exact ⟨d, hd, isWordFmt_iff.mp hf⟩

/-- SoftwareVersion has a four-byte integer format (10_state.md R38). -/
theorem Params.softwareVersion_fmt {p : Params} (h : p.wf = true) :
    ∃ d, p.regmap.find p.regmap.softwareVersion = some d ∧ (d.fmt = [.u32] ∨ d.fmt = [.i32]) := by
  have hw := Params.regmap_wf h
  simp only [RegMap.wf, Bool.and_eq_true] at hw
  obtain ⟨d, hd, hf⟩ := RegMap.fmtIs_iff.mp hw.2.2.2.2.2.2.1
  exact ⟨d, hd, isWordFmt_iff.mp hf⟩

/-- CRCValue is an index of REGMAP, and so a byte (10_state.md R37). -/
theorem Params.crcValue_lt {p : Params} (h : p.wf = true) : p.regmap.crcValue < 256 := by
  have hw := Params.regmap_wf h
  simp only [RegMap.wf, Bool.and_eq_true] at hw
  obtain ⟨d, hd, -⟩ := RegMap.fmtIs_iff.mp hw.2.2.2.1
  exact Params.find_lt h hd

/-- CRCValue is none of the header indices (10_state.md R37, R40). -/
theorem Params.crcValue_not_header {p : Params} (h : p.wf = true) {i : Nat} (hi : i ≤ 5) : i ≠ p.regmap.crcValue := by
  have hw := Params.bank_wf h
  simp only [Banks.wf, Bool.and_eq_true, distinct_iff_nodup] at hw
  have hd := (List.nodup_append.mp hw.2).1
  intro e
  simp only [← e, List.nodup_cons, List.mem_cons, List.not_mem_nil, or_false, not_or] at hd
  omega

theorem mem_allKinds (k : ModuleKind) : k ∈ allKinds := by cases k <;> decide

/-- The five Indices of a kind are defined (10_state.md R39). -/
theorem Params.bank_defined {p : Params} (h : p.wf = true) (k : ModuleKind) {j : Nat} (hj : j ≤ 4) :
    (p.regmap.find (p.bank.base k + j)).isSome = true := by
  have hw := Params.bank_wf h
  simp only [Banks.wf, Bool.and_eq_true, List.all_eq_true] at hw
  refine hw.1 _ (List.mem_flatMap.mpr ⟨k, mem_allKinds k, ?_⟩)
  simp only [Banks.slots, List.mem_cons, List.not_mem_nil, or_false]
  omega

/-! ## Values -/

/-- The domains of 10_state.md R43, as inequalities. -/
theorem Prim.inDomain_iff (t : Prim) (v : Int) : t.inDomain v = true ↔
    if t.signed then -(2 ^ (8 * t.width - 1) : Nat) ≤ v ∧ v < (2 ^ (8 * t.width - 1) : Nat)
    else 0 ≤ v ∧ v < (2 ^ (8 * t.width) : Nat) := by
  unfold Prim.inDomain
  split <;> simp only [Bool.and_eq_true, decide_eq_true_eq]

theorem Prim.width_pos (t : Prim) : 1 ≤ t.width := by cases t <;> decide

theorem Prim.width_le (t : Prim) : t.width ≤ 4 := by cases t <;> decide

/-- A one-byte unsigned value (10_state.md R36, R43). -/
theorem fits_u8_iff (v : Value) : fits [.u8] v = true ↔ ∃ n : Nat, n ≤ 255 ∧ v = .scalar n := by
  cases v with
  | tuple vs => simp [fits, shapeOk]
  | scalar v =>
    have : fits [.u8] (.scalar v) = Prim.inDomain .u8 v := by simp [fits, shapeOk, fieldsInDomain, Value.fields]
    rw [this, Prim.inDomain_iff]
    simp only [Prim.signed, Prim.width, Bool.false_eq_true, if_false, Value.scalar.injEq]
    constructor
    · rintro ⟨h1, h2⟩
      exact ⟨v.toNat, by norm_num at h2; omega, by omega⟩
    · rintro ⟨n, hn, rfl⟩
      norm_num
      omega

end Sys2Proof
end

