-- ==== Sys2Proof/Laws/Crc.lean ====
section
/-! SUPPORT. The CRC engine's shift is linear and one to one, and what its functions give on concatenated byte lists. -/

namespace Sys2Proof

theorem crcShift_xor (a b : Word32) : crcShift (a ^^^ b) = crcShift a ^^^ crcShift b := by
  simp only [crcShift, BitVec.getLsbD_xor, BitVec.shiftLeft_xor_distrib]
  cases a.getLsbD 31 <;> cases b.getLsbD 31 <;> simp <;> apply BitVec.eq_of_getLsbD_eq <;> intro i _ <;>
    simp only [BitVec.getLsbD_xor] <;>
    cases crcPoly.getLsbD i <;> cases (a <<< 1).getLsbD i <;> cases (b <<< 1).getLsbD i <;> rfl

theorem crcShiftN_xor (n : Nat) (a b : Word32) : crcShiftN n (a ^^^ b) = crcShiftN n a ^^^ crcShiftN n b := by
  induction n generalizing a b with
  | zero => rfl
  | succ n ih => simp [crcShiftN, crcShift_xor, ih]

/-- Only 0 shifts to 0: the polynomial has a nonzero x^0 term (40_crc.md R180). -/
theorem eq_zero_of_crcShift_eq_zero {a : Word32} (h : crcShift a = 0#32) : a = 0#32 := by
  have h0 : (crcShift a).getLsbD 0 = a.getLsbD 31 := by
    unfold crcShift
    split <;> rename_i h31
    · simp [h31, crcPoly]
    · simpa using h31
  have h31 : a.getLsbD 31 = false := by rw [← h0, h]; simp
  rw [crcShift, if_neg (by rw [h31]; decide)] at h
  apply BitVec.eq_of_getLsbD_eq
  intro i hi
  rcases Nat.lt_or_ge i 31 with h1 | h1
  · have := congrArg (fun x : Word32 => x.getLsbD (i + 1)) h
    simpa [show i + 1 < 32 by omega, hi] using this
  · have : i = 31 := by omega
    subst this
    simpa using h31

theorem crcShift_injective : Function.Injective crcShift := by
  intro a b h
  have : crcShift (a ^^^ b) = 0#32 := by rw [crcShift_xor, h, BitVec.xor_self]
  exact BitVec.xor_eq_zero_iff.mp (eq_zero_of_crcShift_eq_zero this)

theorem crcShiftN_injective (n : Nat) : Function.Injective (crcShiftN n) := by
  induction n with
  | zero => exact fun _ _ h => h
  | succ n ih => exact fun _ _ h => crcShift_injective (ih h)

theorem crcFeedAll_append (r : Word32) (L M : List Byte) : crcFeedAll r (L ++ M) = crcFeedAll (crcFeedAll r L) M := by
  induction L generalizing r with
  | nil => rfl
  | cons b L ih => exact ih _

/-! ## Little-endian bytes -/

@[simp] theorem length_leBytes (n v : Nat) : (leBytes n v).length = n := by
  induction n generalizing v with
  | zero => rfl
  | succ n ih => simp [leBytes, ih]

/-- `le_value` of `le_bytes_n(v)` is v modulo 256^n (00_scope.md R14). -/
theorem leValue_leBytes (n v : Nat) : leValue (leBytes n v) = v % 256 ^ n := by
  induction n generalizing v with
  | zero => simp [leBytes, leValue, Nat.mod_one]
  | succ n ih =>
    simp only [leBytes, leValue, ih, BitVec.toNat_ofNat]
    have h : 256 ^ (n + 1) = 256 * 256 ^ n := by rw [pow_succ, Nat.mul_comm]
    rw [h, Nat.mod_mul]

theorem leValue_lt (L : List Byte) : leValue L < 256 ^ L.length := by
  induction L with
  | nil => simp [leValue]
  | cons b L ih =>
    have hb := b.isLt
    have h : 256 ^ (L.length + 1) = 256 * 256 ^ L.length := by rw [pow_succ, Nat.mul_comm]
    simp only [leValue, List.length_cons, h]
    omega

/-- `crc_ok` of bytes and a four-byte trailer (40_crc.md R178). -/
theorem crcOk_append (B T : List Byte) (hT : T.length = 4) : crcOk (B ++ T) = ((crc32 B).toNat == leValue T) := by
  simp [crcOk, crcCovered, hT]

end Sys2Proof
end

