-- ==== Sys2Proof/Laws/State.lean ====
section
/-! SUPPORT. What each update of the state does to each field, one lemma per field and update, so that no later proof unfolds
a record update. -/

namespace Sys2Proof.Machine

/-! ## `setPhase` -/

@[simp] theorem State.setPhase_cfg (s : State) (ph : Phase) : (s.setPhase ph).cfg = s.cfg := rfl
@[simp] theorem State.setPhase_dt (s : State) (ph : Phase) : (s.setPhase ph).dt = s.dt := rfl
@[simp] theorem State.setPhase_baudRate (s : State) (ph : Phase) : (s.setPhase ph).baudRate = s.baudRate := rfl
@[simp] theorem State.setPhase_settleDelay (s : State) (ph : Phase) : (s.setPhase ph).settleDelay = s.settleDelay := rfl
@[simp] theorem State.setPhase_lastScanned (s : State) (ph : Phase) : (s.setPhase ph).lastScanned = s.lastScanned := rfl
@[simp] theorem State.setPhase_ackSize (s : State) (ph : Phase) : (s.setPhase ph).ackSize = s.ackSize := rfl
@[simp] theorem State.setPhase_crcReg (s : State) (ph : Phase) : (s.setPhase ph).crcReg = s.crcReg := rfl
@[simp] theorem State.setPhase_portOpen (s : State) (ph : Phase) : (s.setPhase ph).portOpen = s.portOpen := rfl
@[simp] theorem State.setPhase_timeoutSel (s : State) (ph : Phase) : (s.setPhase ph).timeoutSel = s.timeoutSel := rfl
@[simp] theorem State.setPhase_phase (s : State) (ph : Phase) : (s.setPhase ph).phase = ph := rfl
@[simp] theorem State.setPhase_op (s : State) (ph : Phase) : (s.setPhase ph).op = s.op := rfl
@[simp] theorem State.setPhase_txbuf (s : State) (ph : Phase) : (s.setPhase ph).txbuf = s.txbuf := rfl
@[simp] theorem State.setPhase_rxbuf (s : State) (ph : Phase) : (s.setPhase ph).rxbuf = s.rxbuf := rfl
@[simp] theorem State.setPhase_result (s : State) (ph : Phase) : (s.setPhase ph).result = s.result := rfl
@[simp] theorem State.setPhase_trace (s : State) (ph : Phase) : (s.setPhase ph).trace = s.trace := rfl
@[simp] theorem State.setPhase_pending (s : State) (ph : Phase) : (s.setPhase ph).pending = s.pending := rfl
@[simp] theorem State.setPhase_internal (s : State) (ph : Phase) : (s.setPhase ph).internal = s.internal := rfl
@[simp] theorem State.setPhase_busReplies (s : State) (ph : Phase) : (s.setPhase ph).busReplies = s.busReplies := rfl
@[simp] theorem State.setPhase_busReads (s : State) (ph : Phase) : (s.setPhase ph).busReads = s.busReads := rfl
@[simp] theorem State.setPhase_crcOut (s : State) (ph : Phase) : (s.setPhase ph).crcOut = s.crcOut := rfl
@[simp] theorem State.setPhase_phasePath (s : State) (ph : Phase) : (s.setPhase ph).phasePath = s.phasePath ++ [ph] := rfl

/-! ## `emit` -/

@[simp] theorem State.emit_cfg (s : State) (e : Event) : (s.emit e).cfg = s.cfg := rfl
@[simp] theorem State.emit_dt (s : State) (e : Event) : (s.emit e).dt = s.dt := rfl
@[simp] theorem State.emit_baudRate (s : State) (e : Event) : (s.emit e).baudRate = s.baudRate := rfl
@[simp] theorem State.emit_settleDelay (s : State) (e : Event) : (s.emit e).settleDelay = s.settleDelay := rfl
@[simp] theorem State.emit_lastScanned (s : State) (e : Event) : (s.emit e).lastScanned = s.lastScanned := rfl
@[simp] theorem State.emit_ackSize (s : State) (e : Event) : (s.emit e).ackSize = s.ackSize := rfl
@[simp] theorem State.emit_crcReg (s : State) (e : Event) : (s.emit e).crcReg = s.crcReg := rfl
@[simp] theorem State.emit_portOpen (s : State) (e : Event) : (s.emit e).portOpen = s.portOpen := rfl
@[simp] theorem State.emit_timeoutSel (s : State) (e : Event) : (s.emit e).timeoutSel = s.timeoutSel := rfl
@[simp] theorem State.emit_phase (s : State) (e : Event) : (s.emit e).phase = s.phase := rfl
@[simp] theorem State.emit_op (s : State) (e : Event) : (s.emit e).op = s.op := rfl
@[simp] theorem State.emit_txbuf (s : State) (e : Event) : (s.emit e).txbuf = s.txbuf := rfl
@[simp] theorem State.emit_rxbuf (s : State) (e : Event) : (s.emit e).rxbuf = s.rxbuf := rfl
@[simp] theorem State.emit_result (s : State) (e : Event) : (s.emit e).result = s.result := rfl
@[simp] theorem State.emit_trace (s : State) (e : Event) : (s.emit e).trace = s.trace ++ [e] := rfl
@[simp] theorem State.emit_pending (s : State) (e : Event) : (s.emit e).pending = s.pending := rfl
@[simp] theorem State.emit_internal (s : State) (e : Event) : (s.emit e).internal = s.internal := rfl
@[simp] theorem State.emit_busReplies (s : State) (e : Event) : (s.emit e).busReplies = s.busReplies := rfl
@[simp] theorem State.emit_busReads (s : State) (e : Event) : (s.emit e).busReads = s.busReads := rfl
@[simp] theorem State.emit_crcOut (s : State) (e : Event) : (s.emit e).crcOut = s.crcOut := rfl
@[simp] theorem State.emit_phasePath (s : State) (e : Event) : (s.emit e).phasePath = s.phasePath := rfl

/-! ## `accept` -/

@[simp] theorem State.accept_cfg (s : State) (req : Option HostReq) : (s.accept req).cfg = s.cfg := rfl
@[simp] theorem State.accept_dt (s : State) (req : Option HostReq) : (s.accept req).dt = s.dt := rfl
@[simp] theorem State.accept_baudRate (s : State) (req : Option HostReq) : (s.accept req).baudRate = s.baudRate := rfl
@[simp] theorem State.accept_settleDelay (s : State) (req : Option HostReq) :
    (s.accept req).settleDelay = s.settleDelay := rfl
@[simp] theorem State.accept_lastScanned (s : State) (req : Option HostReq) :
    (s.accept req).lastScanned = s.lastScanned := rfl
@[simp] theorem State.accept_ackSize (s : State) (req : Option HostReq) : (s.accept req).ackSize = s.ackSize := rfl
@[simp] theorem State.accept_crcReg (s : State) (req : Option HostReq) : (s.accept req).crcReg = s.crcReg := rfl
@[simp] theorem State.accept_portOpen (s : State) (req : Option HostReq) : (s.accept req).portOpen = s.portOpen := rfl
@[simp] theorem State.accept_timeoutSel (s : State) (req : Option HostReq) : (s.accept req).timeoutSel = s.timeoutSel := rfl
@[simp] theorem State.accept_phase (s : State) (req : Option HostReq) : (s.accept req).phase = .validate := rfl
@[simp] theorem State.accept_op (s : State) (req : Option HostReq) : (s.accept req).op = req := rfl
@[simp] theorem State.accept_txbuf (s : State) (req : Option HostReq) : (s.accept req).txbuf = [] := rfl
@[simp] theorem State.accept_rxbuf (s : State) (req : Option HostReq) : (s.accept req).rxbuf = [] := rfl
@[simp] theorem State.accept_result (s : State) (req : Option HostReq) : (s.accept req).result = s.result := rfl
@[simp] theorem State.accept_trace (s : State) (req : Option HostReq) : (s.accept req).trace = s.trace := rfl
@[simp] theorem State.accept_pending (s : State) (req : Option HostReq) : (s.accept req).pending = s.pending := rfl
@[simp] theorem State.accept_internal (s : State) (req : Option HostReq) : (s.accept req).internal = s.internal := rfl
@[simp] theorem State.accept_busReplies (s : State) (req : Option HostReq) : (s.accept req).busReplies = s.busReplies := rfl
@[simp] theorem State.accept_busReads (s : State) (req : Option HostReq) : (s.accept req).busReads = s.busReads := rfl
@[simp] theorem State.accept_crcOut (s : State) (req : Option HostReq) : (s.accept req).crcOut = s.crcOut := rfl
@[simp] theorem State.accept_phasePath (s : State) (req : Option HostReq) : (s.accept req).phasePath = [.validate] := rfl

/-! ## `finish` -/

@[simp] theorem State.finish_cfg (s : State) (r : Result) : (s.finish r).cfg = s.cfg := rfl
@[simp] theorem State.finish_dt (s : State) (r : Result) : (s.finish r).dt = s.dt := rfl
@[simp] theorem State.finish_baudRate (s : State) (r : Result) : (s.finish r).baudRate = s.baudRate := rfl
@[simp] theorem State.finish_settleDelay (s : State) (r : Result) : (s.finish r).settleDelay = s.settleDelay := rfl
@[simp] theorem State.finish_lastScanned (s : State) (r : Result) : (s.finish r).lastScanned = s.lastScanned := rfl
@[simp] theorem State.finish_ackSize (s : State) (r : Result) : (s.finish r).ackSize = s.ackSize := rfl
@[simp] theorem State.finish_crcReg (s : State) (r : Result) : (s.finish r).crcReg = s.crcReg := rfl
@[simp] theorem State.finish_portOpen (s : State) (r : Result) : (s.finish r).portOpen = s.portOpen := rfl
@[simp] theorem State.finish_timeoutSel (s : State) (r : Result) : (s.finish r).timeoutSel = s.timeoutSel := rfl
@[simp] theorem State.finish_phase (s : State) (r : Result) : (s.finish r).phase = .idle := rfl
@[simp] theorem State.finish_op (s : State) (r : Result) : (s.finish r).op = s.op := rfl
@[simp] theorem State.finish_txbuf (s : State) (r : Result) : (s.finish r).txbuf = s.txbuf := rfl
@[simp] theorem State.finish_rxbuf (s : State) (r : Result) : (s.finish r).rxbuf = s.rxbuf := rfl
@[simp] theorem State.finish_result (s : State) (r : Result) : (s.finish r).result = some r := rfl
@[simp] theorem State.finish_trace (s : State) (r : Result) : (s.finish r).trace = s.trace := rfl
@[simp] theorem State.finish_pending (s : State) (r : Result) : (s.finish r).pending = s.pending := rfl
@[simp] theorem State.finish_internal (s : State) (r : Result) : (s.finish r).internal = s.internal := rfl
@[simp] theorem State.finish_busReplies (s : State) (r : Result) : (s.finish r).busReplies = s.busReplies := rfl
@[simp] theorem State.finish_busReads (s : State) (r : Result) : (s.finish r).busReads = s.busReads := rfl
@[simp] theorem State.finish_crcOut (s : State) (r : Result) : (s.finish r).crcOut = s.crcOut := rfl
@[simp] theorem State.finish_phasePath (s : State) (r : Result) :
    (s.finish r).phasePath = (s.phasePath ++ [.done]) ++ [.idle] := rfl

/-! ## `raiseError` -/

@[simp] theorem State.raiseError_cfg (s : State) (e : ErrorCode) : (s.raiseError e).cfg = s.cfg := rfl
@[simp] theorem State.raiseError_dt (s : State) (e : ErrorCode) : (s.raiseError e).dt = s.dt := rfl
@[simp] theorem State.raiseError_baudRate (s : State) (e : ErrorCode) : (s.raiseError e).baudRate = s.baudRate := rfl
@[simp] theorem State.raiseError_settleDelay (s : State) (e : ErrorCode) :
    (s.raiseError e).settleDelay = s.settleDelay := rfl
@[simp] theorem State.raiseError_lastScanned (s : State) (e : ErrorCode) :
    (s.raiseError e).lastScanned = s.lastScanned := rfl
@[simp] theorem State.raiseError_ackSize (s : State) (e : ErrorCode) : (s.raiseError e).ackSize = s.ackSize := rfl
@[simp] theorem State.raiseError_crcReg (s : State) (e : ErrorCode) : (s.raiseError e).crcReg = s.crcReg := rfl
@[simp] theorem State.raiseError_portOpen (s : State) (e : ErrorCode) : (s.raiseError e).portOpen = s.portOpen := rfl
@[simp] theorem State.raiseError_timeoutSel (s : State) (e : ErrorCode) : (s.raiseError e).timeoutSel = s.timeoutSel := rfl
@[simp] theorem State.raiseError_phase (s : State) (e : ErrorCode) : (s.raiseError e).phase = .idle := rfl
@[simp] theorem State.raiseError_op (s : State) (e : ErrorCode) : (s.raiseError e).op = s.op := rfl
@[simp] theorem State.raiseError_txbuf (s : State) (e : ErrorCode) : (s.raiseError e).txbuf = s.txbuf := rfl
@[simp] theorem State.raiseError_rxbuf (s : State) (e : ErrorCode) : (s.raiseError e).rxbuf = s.rxbuf := rfl
@[simp] theorem State.raiseError_result (s : State) (e : ErrorCode) : (s.raiseError e).result = some (.error e) := rfl
@[simp] theorem State.raiseError_trace (s : State) (e : ErrorCode) : (s.raiseError e).trace = s.trace := rfl
@[simp] theorem State.raiseError_pending (s : State) (e : ErrorCode) : (s.raiseError e).pending = s.pending := rfl
@[simp] theorem State.raiseError_internal (s : State) (e : ErrorCode) : (s.raiseError e).internal = s.internal := rfl
@[simp] theorem State.raiseError_busReplies (s : State) (e : ErrorCode) : (s.raiseError e).busReplies = s.busReplies := rfl
@[simp] theorem State.raiseError_busReads (s : State) (e : ErrorCode) : (s.raiseError e).busReads = s.busReads := rfl
@[simp] theorem State.raiseError_crcOut (s : State) (e : ErrorCode) : (s.raiseError e).crcOut = s.crcOut := rfl
@[simp] theorem State.raiseError_phasePath (s : State) (e : ErrorCode) :
    (s.raiseError e).phasePath = (s.phasePath ++ [.done]) ++ [.idle] := rfl

/-! ## `closePort` -/

@[simp] theorem State.closePort_cfg (s : State) : (s.closePort).cfg = s.cfg := rfl
@[simp] theorem State.closePort_dt (s : State) : (s.closePort).dt = s.dt := rfl
@[simp] theorem State.closePort_baudRate (s : State) : (s.closePort).baudRate = s.baudRate := rfl
@[simp] theorem State.closePort_settleDelay (s : State) : (s.closePort).settleDelay = s.settleDelay := rfl
@[simp] theorem State.closePort_lastScanned (s : State) : (s.closePort).lastScanned = s.lastScanned := rfl
@[simp] theorem State.closePort_ackSize (s : State) : (s.closePort).ackSize = s.ackSize := rfl
@[simp] theorem State.closePort_crcReg (s : State) : (s.closePort).crcReg = s.crcReg := rfl
@[simp] theorem State.closePort_portOpen (s : State) : (s.closePort).portOpen = false := rfl
@[simp] theorem State.closePort_timeoutSel (s : State) : (s.closePort).timeoutSel = s.timeoutSel := rfl
@[simp] theorem State.closePort_phase (s : State) : (s.closePort).phase = s.phase := rfl
@[simp] theorem State.closePort_op (s : State) : (s.closePort).op = s.op := rfl
@[simp] theorem State.closePort_txbuf (s : State) : (s.closePort).txbuf = s.txbuf := rfl
@[simp] theorem State.closePort_rxbuf (s : State) : (s.closePort).rxbuf = s.rxbuf := rfl
@[simp] theorem State.closePort_result (s : State) : (s.closePort).result = s.result := rfl
@[simp] theorem State.closePort_trace (s : State) : (s.closePort).trace = s.trace ++ [.closePort] := rfl
@[simp] theorem State.closePort_pending (s : State) : (s.closePort).pending = s.pending := rfl
@[simp] theorem State.closePort_internal (s : State) : (s.closePort).internal = s.internal := rfl
@[simp] theorem State.closePort_busReplies (s : State) : (s.closePort).busReplies = s.busReplies := rfl
@[simp] theorem State.closePort_busReads (s : State) : (s.closePort).busReads = s.busReads := rfl
@[simp] theorem State.closePort_crcOut (s : State) : (s.closePort).crcOut = s.crcOut := rfl
@[simp] theorem State.closePort_phasePath (s : State) : (s.closePort).phasePath = s.phasePath := rfl

/-! ## `reopenAt` -/

@[simp] theorem State.reopenAt_cfg (s : State) (baud : Nat) : (s.reopenAt baud).cfg = s.cfg := rfl
@[simp] theorem State.reopenAt_dt (s : State) (baud : Nat) : (s.reopenAt baud).dt = s.dt := rfl
@[simp] theorem State.reopenAt_baudRate (s : State) (baud : Nat) : (s.reopenAt baud).baudRate = baud := rfl
@[simp] theorem State.reopenAt_settleDelay (s : State) (baud : Nat) : (s.reopenAt baud).settleDelay = settleOf baud := rfl
@[simp] theorem State.reopenAt_lastScanned (s : State) (baud : Nat) : (s.reopenAt baud).lastScanned = s.lastScanned := rfl
@[simp] theorem State.reopenAt_ackSize (s : State) (baud : Nat) : (s.reopenAt baud).ackSize = s.ackSize := rfl
@[simp] theorem State.reopenAt_crcReg (s : State) (baud : Nat) : (s.reopenAt baud).crcReg = s.crcReg := rfl
@[simp] theorem State.reopenAt_portOpen (s : State) (baud : Nat) : (s.reopenAt baud).portOpen = true := rfl
@[simp] theorem State.reopenAt_timeoutSel (s : State) (baud : Nat) : (s.reopenAt baud).timeoutSel = s.timeoutSel := rfl
@[simp] theorem State.reopenAt_phase (s : State) (baud : Nat) : (s.reopenAt baud).phase = s.phase := rfl
@[simp] theorem State.reopenAt_op (s : State) (baud : Nat) : (s.reopenAt baud).op = s.op := rfl
@[simp] theorem State.reopenAt_txbuf (s : State) (baud : Nat) : (s.reopenAt baud).txbuf = s.txbuf := rfl
@[simp] theorem State.reopenAt_rxbuf (s : State) (baud : Nat) : (s.reopenAt baud).rxbuf = s.rxbuf := rfl
@[simp] theorem State.reopenAt_result (s : State) (baud : Nat) : (s.reopenAt baud).result = s.result := rfl
@[simp] theorem State.reopenAt_trace (s : State) (baud : Nat) :
    (s.reopenAt baud).trace = s.trace ++ [.resetIn, .resetOut, .closePort, .apply baud, .openPort] := rfl
@[simp] theorem State.reopenAt_pending (s : State) (baud : Nat) : (s.reopenAt baud).pending = s.pending := rfl
@[simp] theorem State.reopenAt_internal (s : State) (baud : Nat) : (s.reopenAt baud).internal = s.internal := rfl
@[simp] theorem State.reopenAt_busReplies (s : State) (baud : Nat) : (s.reopenAt baud).busReplies = s.busReplies := rfl
@[simp] theorem State.reopenAt_busReads (s : State) (baud : Nat) : (s.reopenAt baud).busReads = s.busReads := rfl
@[simp] theorem State.reopenAt_crcOut (s : State) (baud : Nat) : (s.reopenAt baud).crcOut = s.crcOut := rfl
@[simp] theorem State.reopenAt_phasePath (s : State) (baud : Nat) : (s.reopenAt baud).phasePath = s.phasePath := rfl

/-! ## `selectTimeout` -/

@[simp] theorem State.selectTimeout_cfg (s : State) (sel : TimeoutSel) : (s.selectTimeout sel).cfg = s.cfg := rfl
@[simp] theorem State.selectTimeout_dt (s : State) (sel : TimeoutSel) : (s.selectTimeout sel).dt = s.dt := rfl
@[simp] theorem State.selectTimeout_baudRate (s : State) (sel : TimeoutSel) :
    (s.selectTimeout sel).baudRate = s.baudRate := rfl
@[simp] theorem State.selectTimeout_settleDelay (s : State) (sel : TimeoutSel) :
    (s.selectTimeout sel).settleDelay = s.settleDelay := rfl
@[simp] theorem State.selectTimeout_lastScanned (s : State) (sel : TimeoutSel) :
    (s.selectTimeout sel).lastScanned = s.lastScanned := rfl
@[simp] theorem State.selectTimeout_ackSize (s : State) (sel : TimeoutSel) :
    (s.selectTimeout sel).ackSize = s.ackSize := rfl
@[simp] theorem State.selectTimeout_crcReg (s : State) (sel : TimeoutSel) : (s.selectTimeout sel).crcReg = s.crcReg := rfl
@[simp] theorem State.selectTimeout_portOpen (s : State) (sel : TimeoutSel) :
    (s.selectTimeout sel).portOpen = s.portOpen := rfl
@[simp] theorem State.selectTimeout_timeoutSel (s : State) (sel : TimeoutSel) :
    (s.selectTimeout sel).timeoutSel = sel := rfl
@[simp] theorem State.selectTimeout_phase (s : State) (sel : TimeoutSel) : (s.selectTimeout sel).phase = s.phase := rfl
@[simp] theorem State.selectTimeout_op (s : State) (sel : TimeoutSel) : (s.selectTimeout sel).op = s.op := rfl
@[simp] theorem State.selectTimeout_txbuf (s : State) (sel : TimeoutSel) : (s.selectTimeout sel).txbuf = s.txbuf := rfl
@[simp] theorem State.selectTimeout_rxbuf (s : State) (sel : TimeoutSel) : (s.selectTimeout sel).rxbuf = s.rxbuf := rfl
@[simp] theorem State.selectTimeout_result (s : State) (sel : TimeoutSel) : (s.selectTimeout sel).result = s.result := rfl
@[simp] theorem State.selectTimeout_trace (s : State) (sel : TimeoutSel) :
    (s.selectTimeout sel).trace = s.trace ++ [.timeout sel] := rfl
@[simp] theorem State.selectTimeout_pending (s : State) (sel : TimeoutSel) :
    (s.selectTimeout sel).pending = s.pending := rfl
@[simp] theorem State.selectTimeout_internal (s : State) (sel : TimeoutSel) :
    (s.selectTimeout sel).internal = s.internal := rfl
@[simp] theorem State.selectTimeout_busReplies (s : State) (sel : TimeoutSel) :
    (s.selectTimeout sel).busReplies = s.busReplies := rfl
@[simp] theorem State.selectTimeout_busReads (s : State) (sel : TimeoutSel) :
    (s.selectTimeout sel).busReads = s.busReads := rfl
@[simp] theorem State.selectTimeout_crcOut (s : State) (sel : TimeoutSel) : (s.selectTimeout sel).crcOut = s.crcOut := rfl
@[simp] theorem State.selectTimeout_phasePath (s : State) (sel : TimeoutSel) :
    (s.selectTimeout sel).phasePath = s.phasePath := rfl

/-! ## `writeMirror` -/

@[simp] theorem State.writeMirror_cfg (s : State) (slot : Nat) (ws : List (Nat × Value)) :
    (s.writeMirror slot ws).cfg = s.cfg := rfl
@[simp] theorem State.writeMirror_dt (s : State) (slot : Nat) (ws : List (Nat × Value)) :
    (s.writeMirror slot ws).dt = writeAll s.cfg s.dt slot ws := rfl
@[simp] theorem State.writeMirror_baudRate (s : State) (slot : Nat) (ws : List (Nat × Value)) :
    (s.writeMirror slot ws).baudRate = s.baudRate := rfl
@[simp] theorem State.writeMirror_settleDelay (s : State) (slot : Nat) (ws : List (Nat × Value)) :
    (s.writeMirror slot ws).settleDelay = s.settleDelay := rfl
@[simp] theorem State.writeMirror_lastScanned (s : State) (slot : Nat) (ws : List (Nat × Value)) :
    (s.writeMirror slot ws).lastScanned = s.lastScanned := rfl
@[simp] theorem State.writeMirror_ackSize (s : State) (slot : Nat) (ws : List (Nat × Value)) :
    (s.writeMirror slot ws).ackSize = s.ackSize := rfl
@[simp] theorem State.writeMirror_crcReg (s : State) (slot : Nat) (ws : List (Nat × Value)) :
    (s.writeMirror slot ws).crcReg = s.crcReg := rfl
@[simp] theorem State.writeMirror_portOpen (s : State) (slot : Nat) (ws : List (Nat × Value)) :
    (s.writeMirror slot ws).portOpen = s.portOpen := rfl
@[simp] theorem State.writeMirror_timeoutSel (s : State) (slot : Nat) (ws : List (Nat × Value)) :
    (s.writeMirror slot ws).timeoutSel = s.timeoutSel := rfl
@[simp] theorem State.writeMirror_phase (s : State) (slot : Nat) (ws : List (Nat × Value)) :
    (s.writeMirror slot ws).phase = s.phase := rfl
@[simp] theorem State.writeMirror_op (s : State) (slot : Nat) (ws : List (Nat × Value)) :
    (s.writeMirror slot ws).op = s.op := rfl
@[simp] theorem State.writeMirror_txbuf (s : State) (slot : Nat) (ws : List (Nat × Value)) :
    (s.writeMirror slot ws).txbuf = s.txbuf := rfl
@[simp] theorem State.writeMirror_rxbuf (s : State) (slot : Nat) (ws : List (Nat × Value)) :
    (s.writeMirror slot ws).rxbuf = s.rxbuf := rfl
@[simp] theorem State.writeMirror_result (s : State) (slot : Nat) (ws : List (Nat × Value)) :
    (s.writeMirror slot ws).result = s.result := rfl
@[simp] theorem State.writeMirror_trace (s : State) (slot : Nat) (ws : List (Nat × Value)) :
    (s.writeMirror slot ws).trace = s.trace := rfl
@[simp] theorem State.writeMirror_pending (s : State) (slot : Nat) (ws : List (Nat × Value)) :
    (s.writeMirror slot ws).pending = s.pending := rfl
@[simp] theorem State.writeMirror_internal (s : State) (slot : Nat) (ws : List (Nat × Value)) :
    (s.writeMirror slot ws).internal = s.internal := rfl
@[simp] theorem State.writeMirror_busReplies (s : State) (slot : Nat) (ws : List (Nat × Value)) :
    (s.writeMirror slot ws).busReplies = s.busReplies := rfl
@[simp] theorem State.writeMirror_busReads (s : State) (slot : Nat) (ws : List (Nat × Value)) :
    (s.writeMirror slot ws).busReads = s.busReads := rfl
@[simp] theorem State.writeMirror_crcOut (s : State) (slot : Nat) (ws : List (Nat × Value)) :
    (s.writeMirror slot ws).crcOut = s.crcOut := rfl
@[simp] theorem State.writeMirror_phasePath (s : State) (slot : Nat) (ws : List (Nat × Value)) :
    (s.writeMirror slot ws).phasePath = s.phasePath := rfl

/-! ## `install` -/

@[simp] theorem State.install_cfg (s : State) (slot id : Nat) (fam : Byte) : (s.install slot id fam).cfg = s.cfg := rfl
@[simp] theorem State.install_dt (s : State) (slot id : Nat) (fam : Byte) :
    (s.install slot id fam).dt = installFresh s.cfg s.dt slot id fam := rfl
@[simp] theorem State.install_baudRate (s : State) (slot id : Nat) (fam : Byte) :
    (s.install slot id fam).baudRate = s.baudRate := rfl
@[simp] theorem State.install_settleDelay (s : State) (slot id : Nat) (fam : Byte) :
    (s.install slot id fam).settleDelay = s.settleDelay := rfl
@[simp] theorem State.install_lastScanned (s : State) (slot id : Nat) (fam : Byte) :
    (s.install slot id fam).lastScanned = s.lastScanned := rfl
@[simp] theorem State.install_ackSize (s : State) (slot id : Nat) (fam : Byte) :
    (s.install slot id fam).ackSize = s.ackSize := rfl
@[simp] theorem State.install_crcReg (s : State) (slot id : Nat) (fam : Byte) :
    (s.install slot id fam).crcReg = s.crcReg := rfl
@[simp] theorem State.install_portOpen (s : State) (slot id : Nat) (fam : Byte) :
    (s.install slot id fam).portOpen = s.portOpen := rfl
@[simp] theorem State.install_timeoutSel (s : State) (slot id : Nat) (fam : Byte) :
    (s.install slot id fam).timeoutSel = s.timeoutSel := rfl
@[simp] theorem State.install_phase (s : State) (slot id : Nat) (fam : Byte) :
    (s.install slot id fam).phase = s.phase := rfl
@[simp] theorem State.install_op (s : State) (slot id : Nat) (fam : Byte) : (s.install slot id fam).op = s.op := rfl
@[simp] theorem State.install_txbuf (s : State) (slot id : Nat) (fam : Byte) :
    (s.install slot id fam).txbuf = s.txbuf := rfl
@[simp] theorem State.install_rxbuf (s : State) (slot id : Nat) (fam : Byte) :
    (s.install slot id fam).rxbuf = s.rxbuf := rfl
@[simp] theorem State.install_result (s : State) (slot id : Nat) (fam : Byte) :
    (s.install slot id fam).result = s.result := rfl
@[simp] theorem State.install_trace (s : State) (slot id : Nat) (fam : Byte) :
    (s.install slot id fam).trace = s.trace := rfl
@[simp] theorem State.install_pending (s : State) (slot id : Nat) (fam : Byte) :
    (s.install slot id fam).pending = s.pending := rfl
@[simp] theorem State.install_internal (s : State) (slot id : Nat) (fam : Byte) :
    (s.install slot id fam).internal = s.internal := rfl
@[simp] theorem State.install_busReplies (s : State) (slot id : Nat) (fam : Byte) :
    (s.install slot id fam).busReplies = s.busReplies := rfl
@[simp] theorem State.install_busReads (s : State) (slot id : Nat) (fam : Byte) :
    (s.install slot id fam).busReads = s.busReads := rfl
@[simp] theorem State.install_crcOut (s : State) (slot id : Nat) (fam : Byte) :
    (s.install slot id fam).crcOut = s.crcOut := rfl
@[simp] theorem State.install_phasePath (s : State) (slot id : Nat) (fam : Byte) :
    (s.install slot id fam).phasePath = s.phasePath := rfl

/-! ## `installSentinel` -/

@[simp] theorem State.installSentinel_cfg (s : State) (slot : Nat) : (s.installSentinel slot).cfg = s.cfg := rfl
@[simp] theorem State.installSentinel_dt (s : State) (slot : Nat) :
    (s.installSentinel slot).dt = installFresh s.cfg s.dt slot bcast s.cfg.sentinelFamily := rfl
@[simp] theorem State.installSentinel_baudRate (s : State) (slot : Nat) :
    (s.installSentinel slot).baudRate = s.baudRate := rfl
@[simp] theorem State.installSentinel_settleDelay (s : State) (slot : Nat) :
    (s.installSentinel slot).settleDelay = s.settleDelay := rfl
@[simp] theorem State.installSentinel_lastScanned (s : State) (slot : Nat) :
    (s.installSentinel slot).lastScanned = s.lastScanned := rfl
@[simp] theorem State.installSentinel_ackSize (s : State) (slot : Nat) : (s.installSentinel slot).ackSize = s.ackSize := rfl
@[simp] theorem State.installSentinel_crcReg (s : State) (slot : Nat) : (s.installSentinel slot).crcReg = s.crcReg := rfl
@[simp] theorem State.installSentinel_portOpen (s : State) (slot : Nat) :
    (s.installSentinel slot).portOpen = s.portOpen := rfl
@[simp] theorem State.installSentinel_timeoutSel (s : State) (slot : Nat) :
    (s.installSentinel slot).timeoutSel = s.timeoutSel := rfl
@[simp] theorem State.installSentinel_phase (s : State) (slot : Nat) : (s.installSentinel slot).phase = s.phase := rfl
@[simp] theorem State.installSentinel_op (s : State) (slot : Nat) : (s.installSentinel slot).op = s.op := rfl
@[simp] theorem State.installSentinel_txbuf (s : State) (slot : Nat) : (s.installSentinel slot).txbuf = s.txbuf := rfl
@[simp] theorem State.installSentinel_rxbuf (s : State) (slot : Nat) : (s.installSentinel slot).rxbuf = s.rxbuf := rfl
@[simp] theorem State.installSentinel_result (s : State) (slot : Nat) : (s.installSentinel slot).result = s.result := rfl
@[simp] theorem State.installSentinel_trace (s : State) (slot : Nat) : (s.installSentinel slot).trace = s.trace := rfl
@[simp] theorem State.installSentinel_pending (s : State) (slot : Nat) : (s.installSentinel slot).pending = s.pending := rfl
@[simp] theorem State.installSentinel_internal (s : State) (slot : Nat) :
    (s.installSentinel slot).internal = s.internal := rfl
@[simp] theorem State.installSentinel_busReplies (s : State) (slot : Nat) :
    (s.installSentinel slot).busReplies = s.busReplies := rfl
@[simp] theorem State.installSentinel_busReads (s : State) (slot : Nat) :
    (s.installSentinel slot).busReads = s.busReads := rfl
@[simp] theorem State.installSentinel_crcOut (s : State) (slot : Nat) : (s.installSentinel slot).crcOut = s.crcOut := rfl
@[simp] theorem State.installSentinel_phasePath (s : State) (slot : Nat) :
    (s.installSentinel slot).phasePath = s.phasePath := rfl

/-! ## `encode` -/

@[simp] theorem State.encode_cfg (s : State) (t : Byte) (c : Command) (payload : List Byte) (ack : Nat) :
    (s.encode t c payload ack).cfg = s.cfg := rfl
@[simp] theorem State.encode_dt (s : State) (t : Byte) (c : Command) (payload : List Byte) (ack : Nat) :
    (s.encode t c payload ack).dt = s.dt := rfl
@[simp] theorem State.encode_baudRate (s : State) (t : Byte) (c : Command) (payload : List Byte) (ack : Nat) :
    (s.encode t c payload ack).baudRate = s.baudRate := rfl
@[simp] theorem State.encode_settleDelay (s : State) (t : Byte) (c : Command) (payload : List Byte) (ack : Nat) :
    (s.encode t c payload ack).settleDelay = s.settleDelay := rfl
@[simp] theorem State.encode_lastScanned (s : State) (t : Byte) (c : Command) (payload : List Byte) (ack : Nat) :
    (s.encode t c payload ack).lastScanned = s.lastScanned := rfl
@[simp] theorem State.encode_ackSize (s : State) (t : Byte) (c : Command) (payload : List Byte) (ack : Nat) :
    (s.encode t c payload ack).ackSize = ack := rfl
@[simp] theorem State.encode_crcReg (s : State) (t : Byte) (c : Command) (payload : List Byte) (ack : Nat) :
    (s.encode t c payload ack).crcReg = crc32 (s.frameBody t c payload) := rfl
@[simp] theorem State.encode_portOpen (s : State) (t : Byte) (c : Command) (payload : List Byte) (ack : Nat) :
    (s.encode t c payload ack).portOpen = s.portOpen := rfl
@[simp] theorem State.encode_timeoutSel (s : State) (t : Byte) (c : Command) (payload : List Byte) (ack : Nat) :
    (s.encode t c payload ack).timeoutSel = s.timeoutSel := rfl
@[simp] theorem State.encode_phase (s : State) (t : Byte) (c : Command) (payload : List Byte) (ack : Nat) :
    (s.encode t c payload ack).phase = s.phase := rfl
@[simp] theorem State.encode_op (s : State) (t : Byte) (c : Command) (payload : List Byte) (ack : Nat) :
    (s.encode t c payload ack).op = s.op := rfl
@[simp] theorem State.encode_txbuf (s : State) (t : Byte) (c : Command) (payload : List Byte) (ack : Nat) :
    (s.encode t c payload ack).txbuf = sealFrame (s.frameBody t c payload) := rfl
@[simp] theorem State.encode_rxbuf (s : State) (t : Byte) (c : Command) (payload : List Byte) (ack : Nat) :
    (s.encode t c payload ack).rxbuf = s.rxbuf := rfl
@[simp] theorem State.encode_result (s : State) (t : Byte) (c : Command) (payload : List Byte) (ack : Nat) :
    (s.encode t c payload ack).result = s.result := rfl
@[simp] theorem State.encode_trace (s : State) (t : Byte) (c : Command) (payload : List Byte) (ack : Nat) :
    (s.encode t c payload ack).trace = s.trace := rfl
@[simp] theorem State.encode_pending (s : State) (t : Byte) (c : Command) (payload : List Byte) (ack : Nat) :
    (s.encode t c payload ack).pending = s.pending := rfl
@[simp] theorem State.encode_internal (s : State) (t : Byte) (c : Command) (payload : List Byte) (ack : Nat) :
    (s.encode t c payload ack).internal = s.internal := rfl
@[simp] theorem State.encode_busReplies (s : State) (t : Byte) (c : Command) (payload : List Byte) (ack : Nat) :
    (s.encode t c payload ack).busReplies = s.busReplies := rfl
@[simp] theorem State.encode_busReads (s : State) (t : Byte) (c : Command) (payload : List Byte) (ack : Nat) :
    (s.encode t c payload ack).busReads = s.busReads := rfl
@[simp] theorem State.encode_crcOut (s : State) (t : Byte) (c : Command) (payload : List Byte) (ack : Nat) :
    (s.encode t c payload ack).crcOut = s.crcOut := rfl
@[simp] theorem State.encode_phasePath (s : State) (t : Byte) (c : Command) (payload : List Byte) (ack : Nat) :
    (s.encode t c payload ack).phasePath = s.phasePath := rfl

/-! ## `receive` -/

@[simp] theorem State.receive_cfg (s : State) (n : Nat) : (s.receive n).cfg = s.cfg := rfl
@[simp] theorem State.receive_dt (s : State) (n : Nat) : (s.receive n).dt = s.dt := rfl
@[simp] theorem State.receive_baudRate (s : State) (n : Nat) : (s.receive n).baudRate = s.baudRate := rfl
@[simp] theorem State.receive_settleDelay (s : State) (n : Nat) : (s.receive n).settleDelay = s.settleDelay := rfl
@[simp] theorem State.receive_lastScanned (s : State) (n : Nat) : (s.receive n).lastScanned = s.lastScanned := rfl
@[simp] theorem State.receive_ackSize (s : State) (n : Nat) : (s.receive n).ackSize = s.ackSize := rfl
@[simp] theorem State.receive_crcReg (s : State) (n : Nat) : (s.receive n).crcReg = s.crcReg := rfl
@[simp] theorem State.receive_portOpen (s : State) (n : Nat) : (s.receive n).portOpen = s.portOpen := rfl
@[simp] theorem State.receive_timeoutSel (s : State) (n : Nat) : (s.receive n).timeoutSel = s.timeoutSel := rfl
@[simp] theorem State.receive_phase (s : State) (n : Nat) : (s.receive n).phase = s.phase := rfl
@[simp] theorem State.receive_op (s : State) (n : Nat) : (s.receive n).op = s.op := rfl
@[simp] theorem State.receive_txbuf (s : State) (n : Nat) : (s.receive n).txbuf = s.txbuf := rfl
@[simp] theorem State.receive_rxbuf (s : State) (n : Nat) : (s.receive n).rxbuf = s.answer n := rfl
@[simp] theorem State.receive_result (s : State) (n : Nat) : (s.receive n).result = s.result := rfl
@[simp] theorem State.receive_trace (s : State) (n : Nat) : (s.receive n).trace = s.trace ++ [.rx n (s.answer n)] := rfl
@[simp] theorem State.receive_pending (s : State) (n : Nat) : (s.receive n).pending = s.pending := rfl
@[simp] theorem State.receive_internal (s : State) (n : Nat) : (s.receive n).internal = s.internal := rfl
@[simp] theorem State.receive_busReplies (s : State) (n : Nat) : (s.receive n).busReplies = s.busReplies.tail := rfl
@[simp] theorem State.receive_busReads (s : State) (n : Nat) : (s.receive n).busReads = s.busReads + 1 := rfl
@[simp] theorem State.receive_crcOut (s : State) (n : Nat) : (s.receive n).crcOut = s.crcOut := rfl
@[simp] theorem State.receive_phasePath (s : State) (n : Nat) : (s.receive n).phasePath = s.phasePath := rfl

/-! ## `send` -/

@[simp] theorem State.send_cfg (s : State) : (s.send).cfg = s.cfg := rfl
@[simp] theorem State.send_dt (s : State) : (s.send).dt = s.dt := rfl
@[simp] theorem State.send_baudRate (s : State) : (s.send).baudRate = s.baudRate := rfl
@[simp] theorem State.send_settleDelay (s : State) : (s.send).settleDelay = s.settleDelay := rfl
@[simp] theorem State.send_lastScanned (s : State) : (s.send).lastScanned = s.lastScanned := rfl
@[simp] theorem State.send_ackSize (s : State) : (s.send).ackSize = s.ackSize := rfl
@[simp] theorem State.send_crcReg (s : State) : (s.send).crcReg = s.crcReg := rfl
@[simp] theorem State.send_portOpen (s : State) : (s.send).portOpen = s.portOpen := rfl
@[simp] theorem State.send_timeoutSel (s : State) : (s.send).timeoutSel = s.timeoutSel := rfl
@[simp] theorem State.send_phase (s : State) : (s.send).phase = .settle := rfl
@[simp] theorem State.send_op (s : State) : (s.send).op = s.op := rfl
@[simp] theorem State.send_txbuf (s : State) : (s.send).txbuf = s.txbuf := rfl
@[simp] theorem State.send_rxbuf (s : State) : (s.send).rxbuf = s.rxbuf := rfl
@[simp] theorem State.send_result (s : State) : (s.send).result = s.result := rfl
@[simp] theorem State.send_trace (s : State) : (s.send).trace = (s.trace ++ [.tx s.txbuf]) ++ [.settle s.baudRate] := rfl
@[simp] theorem State.send_pending (s : State) : (s.send).pending = s.pending := rfl
@[simp] theorem State.send_internal (s : State) : (s.send).internal = s.internal := rfl
@[simp] theorem State.send_busReplies (s : State) : (s.send).busReplies = s.busReplies := rfl
@[simp] theorem State.send_busReads (s : State) : (s.send).busReads = s.busReads := rfl
@[simp] theorem State.send_crcOut (s : State) : (s.send).crcOut = s.crcOut := rfl
@[simp] theorem State.send_phasePath (s : State) : (s.send).phasePath = (s.phasePath ++ [.tx]) ++ [.settle] := rfl

/-! ## `readReply` -/

@[simp] theorem State.readReply_cfg (s : State) (n : Nat) : (s.readReply n).cfg = s.cfg := rfl
@[simp] theorem State.readReply_dt (s : State) (n : Nat) : (s.readReply n).dt = s.dt := rfl
@[simp] theorem State.readReply_baudRate (s : State) (n : Nat) : (s.readReply n).baudRate = s.baudRate := rfl
@[simp] theorem State.readReply_settleDelay (s : State) (n : Nat) : (s.readReply n).settleDelay = s.settleDelay := rfl
@[simp] theorem State.readReply_lastScanned (s : State) (n : Nat) : (s.readReply n).lastScanned = s.lastScanned := rfl
@[simp] theorem State.readReply_ackSize (s : State) (n : Nat) : (s.readReply n).ackSize = s.ackSize := rfl
@[simp] theorem State.readReply_crcReg (s : State) (n : Nat) : (s.readReply n).crcReg = s.crcReg := rfl
@[simp] theorem State.readReply_portOpen (s : State) (n : Nat) : (s.readReply n).portOpen = s.portOpen := rfl
@[simp] theorem State.readReply_timeoutSel (s : State) (n : Nat) : (s.readReply n).timeoutSel = s.timeoutSel := rfl
@[simp] theorem State.readReply_phase (s : State) (n : Nat) : (s.readReply n).phase = .check := rfl
@[simp] theorem State.readReply_op (s : State) (n : Nat) : (s.readReply n).op = s.op := rfl
@[simp] theorem State.readReply_txbuf (s : State) (n : Nat) : (s.readReply n).txbuf = s.txbuf := rfl
@[simp] theorem State.readReply_rxbuf (s : State) (n : Nat) : (s.readReply n).rxbuf = s.answer n := rfl
@[simp] theorem State.readReply_result (s : State) (n : Nat) : (s.readReply n).result = s.result := rfl
@[simp] theorem State.readReply_trace (s : State) (n : Nat) : (s.readReply n).trace = s.trace ++ [.rx n (s.answer n)] := rfl
@[simp] theorem State.readReply_pending (s : State) (n : Nat) : (s.readReply n).pending = s.pending := rfl
@[simp] theorem State.readReply_internal (s : State) (n : Nat) : (s.readReply n).internal = s.internal := rfl
@[simp] theorem State.readReply_busReplies (s : State) (n : Nat) : (s.readReply n).busReplies = s.busReplies.tail := rfl
@[simp] theorem State.readReply_busReads (s : State) (n : Nat) : (s.readReply n).busReads = s.busReads + 1 := rfl
@[simp] theorem State.readReply_crcOut (s : State) (n : Nat) : (s.readReply n).crcOut = s.crcOut := rfl
@[simp] theorem State.readReply_phasePath (s : State) (n : Nat) :
    (s.readReply n).phasePath = (s.phasePath ++ [.rx]) ++ [.check] := rfl

/-! ## `recordScanned` -/

@[simp] theorem State.recordScanned_cfg (s : State) (found : List Nat) : (s.recordScanned found).cfg = s.cfg := rfl
@[simp] theorem State.recordScanned_dt (s : State) (found : List Nat) : (s.recordScanned found).dt = s.dt := rfl
@[simp] theorem State.recordScanned_baudRate (s : State) (found : List Nat) :
    (s.recordScanned found).baudRate = s.baudRate := rfl
@[simp] theorem State.recordScanned_settleDelay (s : State) (found : List Nat) :
    (s.recordScanned found).settleDelay = s.settleDelay := rfl
@[simp] theorem State.recordScanned_lastScanned (s : State) (found : List Nat) :
    (s.recordScanned found).lastScanned = found := rfl
@[simp] theorem State.recordScanned_ackSize (s : State) (found : List Nat) :
    (s.recordScanned found).ackSize = s.ackSize := rfl
@[simp] theorem State.recordScanned_crcReg (s : State) (found : List Nat) : (s.recordScanned found).crcReg = s.crcReg := rfl
@[simp] theorem State.recordScanned_portOpen (s : State) (found : List Nat) :
    (s.recordScanned found).portOpen = s.portOpen := rfl
@[simp] theorem State.recordScanned_timeoutSel (s : State) (found : List Nat) :
    (s.recordScanned found).timeoutSel = s.timeoutSel := rfl
@[simp] theorem State.recordScanned_phase (s : State) (found : List Nat) : (s.recordScanned found).phase = s.phase := rfl
@[simp] theorem State.recordScanned_op (s : State) (found : List Nat) : (s.recordScanned found).op = s.op := rfl
@[simp] theorem State.recordScanned_txbuf (s : State) (found : List Nat) : (s.recordScanned found).txbuf = s.txbuf := rfl
@[simp] theorem State.recordScanned_rxbuf (s : State) (found : List Nat) : (s.recordScanned found).rxbuf = s.rxbuf := rfl
@[simp] theorem State.recordScanned_result (s : State) (found : List Nat) : (s.recordScanned found).result = s.result := rfl
@[simp] theorem State.recordScanned_trace (s : State) (found : List Nat) : (s.recordScanned found).trace = s.trace := rfl
@[simp] theorem State.recordScanned_pending (s : State) (found : List Nat) :
    (s.recordScanned found).pending = s.pending := rfl
@[simp] theorem State.recordScanned_internal (s : State) (found : List Nat) :
    (s.recordScanned found).internal = s.internal := rfl
@[simp] theorem State.recordScanned_busReplies (s : State) (found : List Nat) :
    (s.recordScanned found).busReplies = s.busReplies := rfl
@[simp] theorem State.recordScanned_busReads (s : State) (found : List Nat) :
    (s.recordScanned found).busReads = s.busReads := rfl
@[simp] theorem State.recordScanned_crcOut (s : State) (found : List Nat) : (s.recordScanned found).crcOut = s.crcOut := rfl
@[simp] theorem State.recordScanned_phasePath (s : State) (found : List Nat) :
    (s.recordScanned found).phasePath = s.phasePath := rfl

/-! ## `checkCrc` -/

@[simp] theorem State.checkCrc_cfg (s : State) : (s.checkCrc).cfg = s.cfg := rfl
@[simp] theorem State.checkCrc_dt (s : State) : (s.checkCrc).dt = s.dt := rfl
@[simp] theorem State.checkCrc_baudRate (s : State) : (s.checkCrc).baudRate = s.baudRate := rfl
@[simp] theorem State.checkCrc_settleDelay (s : State) : (s.checkCrc).settleDelay = s.settleDelay := rfl
@[simp] theorem State.checkCrc_lastScanned (s : State) : (s.checkCrc).lastScanned = s.lastScanned := rfl
@[simp] theorem State.checkCrc_ackSize (s : State) : (s.checkCrc).ackSize = s.ackSize := rfl
@[simp] theorem State.checkCrc_crcReg (s : State) : (s.checkCrc).crcReg = crc32 (crcCovered s.rxbuf) := rfl
@[simp] theorem State.checkCrc_portOpen (s : State) : (s.checkCrc).portOpen = s.portOpen := rfl
@[simp] theorem State.checkCrc_timeoutSel (s : State) : (s.checkCrc).timeoutSel = s.timeoutSel := rfl
@[simp] theorem State.checkCrc_phase (s : State) : (s.checkCrc).phase = s.phase := rfl
@[simp] theorem State.checkCrc_op (s : State) : (s.checkCrc).op = s.op := rfl
@[simp] theorem State.checkCrc_txbuf (s : State) : (s.checkCrc).txbuf = s.txbuf := rfl
@[simp] theorem State.checkCrc_rxbuf (s : State) : (s.checkCrc).rxbuf = s.rxbuf := rfl
@[simp] theorem State.checkCrc_result (s : State) : (s.checkCrc).result = s.result := rfl
@[simp] theorem State.checkCrc_trace (s : State) : (s.checkCrc).trace = s.trace := rfl
@[simp] theorem State.checkCrc_pending (s : State) : (s.checkCrc).pending = s.pending := rfl
@[simp] theorem State.checkCrc_internal (s : State) : (s.checkCrc).internal = s.internal := rfl
@[simp] theorem State.checkCrc_busReplies (s : State) : (s.checkCrc).busReplies = s.busReplies := rfl
@[simp] theorem State.checkCrc_busReads (s : State) : (s.checkCrc).busReads = s.busReads := rfl
@[simp] theorem State.checkCrc_crcOut (s : State) : (s.checkCrc).crcOut = s.crcOut := rfl
@[simp] theorem State.checkCrc_phasePath (s : State) : (s.checkCrc).phasePath = s.phasePath := rfl

/-! ## `commit` -/

@[simp] theorem State.commit_cfg (s : State) (slot : Nat) (ws : List (Nat × Value)) :
    (s.commit slot ws).cfg = s.cfg := by
  unfold State.commit; split <;> rfl
@[simp] theorem State.commit_dt (s : State) (slot : Nat) (ws : List (Nat × Value)) :
    (s.commit slot ws).dt = if slot = bcast then s.dt else writeAll s.cfg s.dt slot ws := by
  unfold State.commit; split <;> rfl
@[simp] theorem State.commit_baudRate (s : State) (slot : Nat) (ws : List (Nat × Value)) :
    (s.commit slot ws).baudRate = s.baudRate := by
  unfold State.commit; split <;> rfl
@[simp] theorem State.commit_settleDelay (s : State) (slot : Nat) (ws : List (Nat × Value)) :
    (s.commit slot ws).settleDelay = s.settleDelay := by
  unfold State.commit; split <;> rfl
@[simp] theorem State.commit_lastScanned (s : State) (slot : Nat) (ws : List (Nat × Value)) :
    (s.commit slot ws).lastScanned = s.lastScanned := by
  unfold State.commit; split <;> rfl
@[simp] theorem State.commit_ackSize (s : State) (slot : Nat) (ws : List (Nat × Value)) :
    (s.commit slot ws).ackSize = s.ackSize := by
  unfold State.commit; split <;> rfl
@[simp] theorem State.commit_crcReg (s : State) (slot : Nat) (ws : List (Nat × Value)) :
    (s.commit slot ws).crcReg = s.crcReg := by
  unfold State.commit; split <;> rfl
@[simp] theorem State.commit_portOpen (s : State) (slot : Nat) (ws : List (Nat × Value)) :
    (s.commit slot ws).portOpen = s.portOpen := by
  unfold State.commit; split <;> rfl
@[simp] theorem State.commit_timeoutSel (s : State) (slot : Nat) (ws : List (Nat × Value)) :
    (s.commit slot ws).timeoutSel = s.timeoutSel := by
  unfold State.commit; split <;> rfl
@[simp] theorem State.commit_phase (s : State) (slot : Nat) (ws : List (Nat × Value)) :
    (s.commit slot ws).phase = s.phase := by
  unfold State.commit; split <;> rfl
@[simp] theorem State.commit_op (s : State) (slot : Nat) (ws : List (Nat × Value)) :
    (s.commit slot ws).op = s.op := by
  unfold State.commit; split <;> rfl
@[simp] theorem State.commit_txbuf (s : State) (slot : Nat) (ws : List (Nat × Value)) :
    (s.commit slot ws).txbuf = s.txbuf := by
  unfold State.commit; split <;> rfl
@[simp] theorem State.commit_rxbuf (s : State) (slot : Nat) (ws : List (Nat × Value)) :
    (s.commit slot ws).rxbuf = s.rxbuf := by
  unfold State.commit; split <;> rfl
@[simp] theorem State.commit_result (s : State) (slot : Nat) (ws : List (Nat × Value)) :
    (s.commit slot ws).result = s.result := by
  unfold State.commit; split <;> rfl
@[simp] theorem State.commit_trace (s : State) (slot : Nat) (ws : List (Nat × Value)) :
    (s.commit slot ws).trace = s.trace := by
  unfold State.commit; split <;> rfl
@[simp] theorem State.commit_pending (s : State) (slot : Nat) (ws : List (Nat × Value)) :
    (s.commit slot ws).pending = s.pending := by
  unfold State.commit; split <;> rfl
@[simp] theorem State.commit_internal (s : State) (slot : Nat) (ws : List (Nat × Value)) :
    (s.commit slot ws).internal = s.internal := by
  unfold State.commit; split <;> rfl
@[simp] theorem State.commit_busReplies (s : State) (slot : Nat) (ws : List (Nat × Value)) :
    (s.commit slot ws).busReplies = s.busReplies := by
  unfold State.commit; split <;> rfl
@[simp] theorem State.commit_busReads (s : State) (slot : Nat) (ws : List (Nat × Value)) :
    (s.commit slot ws).busReads = s.busReads := by
  unfold State.commit; split <;> rfl
@[simp] theorem State.commit_crcOut (s : State) (slot : Nat) (ws : List (Nat × Value)) :
    (s.commit slot ws).crcOut = s.crcOut := by
  unfold State.commit; split <;> rfl
@[simp] theorem State.commit_phasePath (s : State) (slot : Nat) (ws : List (Nat × Value)) :
    (s.commit slot ws).phasePath = s.phasePath := by
  unfold State.commit; split <;> rfl

end Sys2Proof.Machine
end

