-- ==== Sys2Proof/Laws/Ops.lean ====
section
/-! SUPPORT. What the shared operations of the bus master can do, said once: the first error of a list of checks, the running
of a host operation, the requests, and the acknowledgment protocol. -/

namespace Sys2Proof.Machine

/-! ## Checks -/

theorem firstError_eq_none_iff (l : List (Option ErrorCode)) : firstError l = none ↔ ∀ e ∈ l, e = none := by
  induction l with
  | nil => simp [firstError]
  | cons a l ih => cases a <;> simp [firstError, ih]

@[simp] theorem firstError_cons_none (l : List (Option ErrorCode)) : firstError (none :: l) = firstError l := rfl

@[simp] theorem firstError_cons_some (e : ErrorCode) (l : List (Option ErrorCode)) : firstError (some e :: l) = some e := rfl

@[simp] theorem firstError_nil : firstError [] = none := rfl

theorem firstError_append (l m : List (Option ErrorCode)) :
    firstError (l ++ m) = (firstError l).or (firstError m) := by
  induction l with
  | nil => rfl
  | cons a l ih => cases a <;> simp [ih]

@[simp] theorem failWhen_eq_none_iff (c : Bool) (e : ErrorCode) : failWhen c e = none ↔ c = false := by
  cases c <;> simp [failWhen]

@[simp] theorem failWhen_true (e : ErrorCode) : failWhen true e = some e := rfl

@[simp] theorem failWhen_false (e : ErrorCode) : failWhen false e = none := rfl

/-- `check_id` passes for 0..254, and for 255 where broadcast is accepted (42_bus_master.md R253). -/
theorem checkId_eq_none_iff (id : Int) (b : Bool) : checkId id b = none ↔ 0 ≤ id ∧ id ≤ 255 ∧ (id = 255 → b = true) := by
  unfold checkId
  split
  · simp; omega
  · split
    · rename_i h1 h2; simp [h2.1, h2.2]
    · rename_i h1 h2
      simp only [true_iff]
      refine ⟨by omega, by omega, fun h => ?_⟩
      cases b
      · exact absurd ⟨h, rfl⟩ h2
      · rfl

/-! ## A host operation -/

/-- A host operation whose checks fail (60_exceptions.md R360, R378). -/
theorem runOp_of_error {i : Instr} {check : State → Option ErrorCode} {body : State → State × Result} {s : State}
    {e : ErrorCode} (h : check (s.accept (hostRequest i)) = some e) :
    runOp i check body s = (s.accept (hostRequest i)).raiseError e := by simp [runOp, h]

/-- A host operation whose checks pass (42_bus_master.md R258). -/
theorem runOp_of_none {i : Instr} {check : State → Option ErrorCode} {body : State → State × Result} {s : State}
    (h : check (s.accept (hostRequest i)) = none) :
    runOp i check body s = (body (s.accept (hostRequest i))).1.finish (body (s.accept (hostRequest i))).2 := by
  simp [runOp, h]

/-- All a host operation can do (42_bus_master.md R258): fail in VALIDATE, or run its body. -/
theorem runOp_cases (i : Instr) (check : State → Option ErrorCode) (body : State → State × Result) (s : State) :
    (∃ e, check (s.accept (hostRequest i)) = some e ∧ runOp i check body s = (s.accept (hostRequest i)).raiseError e)
    ∨ (check (s.accept (hostRequest i)) = none
      ∧ runOp i check body s = (body (s.accept (hostRequest i))).1.finish (body (s.accept (hostRequest i))).2) := by
  cases h : check (s.accept (hostRequest i)) with
  | some e => exact .inl ⟨e, rfl, runOp_of_error h⟩
  | none => exact .inr ⟨rfl, runOp_of_none h⟩

/-- The state after a failed check, written out (60_exceptions.md R378). -/
theorem accept_raiseError_eq (s : State) (req : Option HostReq) (e : ErrorCode) :
    (s.accept req).raiseError e = { s with op := req, result := some (.error e), txbuf := [], rxbuf := [], phase := .idle,
                                           phasePath := [.validate, .done, .idle] } := rfl

/-! ## Mirrors seen by the codec -/

theorem State.read_congr {s t : State} (hc : t.cfg = s.cfg) (hd : t.dt = s.dt) (slot idx : Nat) :
    t.read slot idx = s.read slot idx := by simp [State.read, hc, hd]

theorem State.mirrorByte_congr {s t : State} (hc : t.cfg = s.cfg) (hd : t.dt = s.dt) (slot idx : Nat) :
    t.mirrorByte slot idx = s.mirrorByte slot idx := by simp [State.mirrorByte, State.read_congr hc hd]

theorem State.attached_congr {s t : State} (hc : t.cfg = s.cfg) (hd : t.dt = s.dt) (id : Nat) :
    t.attached id = s.attached id := by simp [State.attached, State.read_congr hc hd]

theorem State.frameBody_congr {s t : State} (hc : t.cfg = s.cfg) (hd : t.dt = s.dt) (b : Byte) (c : Command)
    (payload : List Byte) : t.frameBody b c payload = s.frameBody b c payload := by
  simp [State.frameBody, State.mirrorByte_congr hc hd, hc]

theorem State.answer_congr {s t : State} (hr : t.busReplies = s.busReplies) (hn : t.busReads = s.busReads) (n : Nat) :
    t.answer n = s.answer n := by simp [State.answer, hr, hn]


/-! Every update but a mirror's leaves what the mirrors read as, and every update but a read leaves what the bus answers. -/

@[simp] theorem State.setPhase_read (s : State) (ph : Phase) (slot idx : Nat) :
    (s.setPhase ph).read slot idx = s.read slot idx := rfl

@[simp] theorem State.setPhase_mirrorByte (s : State) (ph : Phase) (slot idx : Nat) :
    (s.setPhase ph).mirrorByte slot idx = s.mirrorByte slot idx := rfl

@[simp] theorem State.setPhase_attached (s : State) (ph : Phase) (id : Nat) :
    (s.setPhase ph).attached id = s.attached id := rfl

@[simp] theorem State.setPhase_frameBody (s : State) (ph : Phase) (u : Byte) (k : Command) (P : List Byte) :
    (s.setPhase ph).frameBody u k P = s.frameBody u k P := rfl

@[simp] theorem State.setPhase_answer (s : State) (ph : Phase) (k : Nat) :
    (s.setPhase ph).answer k = s.answer k := rfl

@[simp] theorem State.emit_read (s : State) (e : Event) (slot idx : Nat) :
    (s.emit e).read slot idx = s.read slot idx := rfl

@[simp] theorem State.emit_mirrorByte (s : State) (e : Event) (slot idx : Nat) :
    (s.emit e).mirrorByte slot idx = s.mirrorByte slot idx := rfl

@[simp] theorem State.emit_attached (s : State) (e : Event) (id : Nat) :
    (s.emit e).attached id = s.attached id := rfl

@[simp] theorem State.emit_frameBody (s : State) (e : Event) (u : Byte) (k : Command) (P : List Byte) :
    (s.emit e).frameBody u k P = s.frameBody u k P := rfl

@[simp] theorem State.emit_answer (s : State) (e : Event) (k : Nat) :
    (s.emit e).answer k = s.answer k := rfl

@[simp] theorem State.accept_read (s : State) (req : Option HostReq) (slot idx : Nat) :
    (s.accept req).read slot idx = s.read slot idx := rfl

@[simp] theorem State.accept_mirrorByte (s : State) (req : Option HostReq) (slot idx : Nat) :
    (s.accept req).mirrorByte slot idx = s.mirrorByte slot idx := rfl

@[simp] theorem State.accept_attached (s : State) (req : Option HostReq) (id : Nat) :
    (s.accept req).attached id = s.attached id := rfl

@[simp] theorem State.accept_frameBody (s : State) (req : Option HostReq) (u : Byte) (k : Command) (P : List Byte) :
    (s.accept req).frameBody u k P = s.frameBody u k P := rfl

@[simp] theorem State.accept_answer (s : State) (req : Option HostReq) (k : Nat) :
    (s.accept req).answer k = s.answer k := rfl

@[simp] theorem State.finish_read (s : State) (r : Result) (slot idx : Nat) :
    (s.finish r).read slot idx = s.read slot idx := rfl

@[simp] theorem State.finish_mirrorByte (s : State) (r : Result) (slot idx : Nat) :
    (s.finish r).mirrorByte slot idx = s.mirrorByte slot idx := rfl

@[simp] theorem State.finish_attached (s : State) (r : Result) (id : Nat) :
    (s.finish r).attached id = s.attached id := rfl

@[simp] theorem State.finish_frameBody (s : State) (r : Result) (u : Byte) (k : Command) (P : List Byte) :
    (s.finish r).frameBody u k P = s.frameBody u k P := rfl

@[simp] theorem State.finish_answer (s : State) (r : Result) (k : Nat) :
    (s.finish r).answer k = s.answer k := rfl

@[simp] theorem State.raiseError_read (s : State) (e : ErrorCode) (slot idx : Nat) :
    (s.raiseError e).read slot idx = s.read slot idx := rfl

@[simp] theorem State.raiseError_mirrorByte (s : State) (e : ErrorCode) (slot idx : Nat) :
    (s.raiseError e).mirrorByte slot idx = s.mirrorByte slot idx := rfl

@[simp] theorem State.raiseError_attached (s : State) (e : ErrorCode) (id : Nat) :
    (s.raiseError e).attached id = s.attached id := rfl

@[simp] theorem State.raiseError_frameBody (s : State) (e : ErrorCode) (u : Byte) (k : Command) (P : List Byte) :
    (s.raiseError e).frameBody u k P = s.frameBody u k P := rfl

@[simp] theorem State.raiseError_answer (s : State) (e : ErrorCode) (k : Nat) :
    (s.raiseError e).answer k = s.answer k := rfl

@[simp] theorem State.closePort_read (s : State) (slot idx : Nat) :
    (s.closePort).read slot idx = s.read slot idx := rfl

@[simp] theorem State.closePort_mirrorByte (s : State) (slot idx : Nat) :
    (s.closePort).mirrorByte slot idx = s.mirrorByte slot idx := rfl

@[simp] theorem State.closePort_attached (s : State) (id : Nat) :
    (s.closePort).attached id = s.attached id := rfl

@[simp] theorem State.closePort_frameBody (s : State) (u : Byte) (k : Command) (P : List Byte) :
    (s.closePort).frameBody u k P = s.frameBody u k P := rfl

@[simp] theorem State.closePort_answer (s : State) (k : Nat) :
    (s.closePort).answer k = s.answer k := rfl

@[simp] theorem State.reopenAt_read (s : State) (baud : Nat) (slot idx : Nat) :
    (s.reopenAt baud).read slot idx = s.read slot idx := rfl

@[simp] theorem State.reopenAt_mirrorByte (s : State) (baud : Nat) (slot idx : Nat) :
    (s.reopenAt baud).mirrorByte slot idx = s.mirrorByte slot idx := rfl

@[simp] theorem State.reopenAt_attached (s : State) (baud : Nat) (id : Nat) :
    (s.reopenAt baud).attached id = s.attached id := rfl

@[simp] theorem State.reopenAt_frameBody (s : State) (baud : Nat) (u : Byte) (k : Command) (P : List Byte) :
    (s.reopenAt baud).frameBody u k P = s.frameBody u k P := rfl

@[simp] theorem State.reopenAt_answer (s : State) (baud : Nat) (k : Nat) :
    (s.reopenAt baud).answer k = s.answer k := rfl

@[simp] theorem State.selectTimeout_read (s : State) (sel : TimeoutSel) (slot idx : Nat) :
    (s.selectTimeout sel).read slot idx = s.read slot idx := rfl

@[simp] theorem State.selectTimeout_mirrorByte (s : State) (sel : TimeoutSel) (slot idx : Nat) :
    (s.selectTimeout sel).mirrorByte slot idx = s.mirrorByte slot idx := rfl

@[simp] theorem State.selectTimeout_attached (s : State) (sel : TimeoutSel) (id : Nat) :
    (s.selectTimeout sel).attached id = s.attached id := rfl

@[simp] theorem State.selectTimeout_frameBody (s : State) (sel : TimeoutSel) (u : Byte) (k : Command) (P : List Byte) :
    (s.selectTimeout sel).frameBody u k P = s.frameBody u k P := rfl

@[simp] theorem State.selectTimeout_answer (s : State) (sel : TimeoutSel) (k : Nat) :
    (s.selectTimeout sel).answer k = s.answer k := rfl

@[simp] theorem State.recordScanned_read (s : State) (found : List Nat) (slot idx : Nat) :
    (s.recordScanned found).read slot idx = s.read slot idx := rfl

@[simp] theorem State.recordScanned_mirrorByte (s : State) (found : List Nat) (slot idx : Nat) :
    (s.recordScanned found).mirrorByte slot idx = s.mirrorByte slot idx := rfl

@[simp] theorem State.recordScanned_attached (s : State) (found : List Nat) (id : Nat) :
    (s.recordScanned found).attached id = s.attached id := rfl

@[simp] theorem State.recordScanned_frameBody (s : State) (found : List Nat) (u : Byte) (k : Command) (P : List Byte) :
    (s.recordScanned found).frameBody u k P = s.frameBody u k P := rfl

@[simp] theorem State.recordScanned_answer (s : State) (found : List Nat) (k : Nat) :
    (s.recordScanned found).answer k = s.answer k := rfl

@[simp] theorem State.encode_read (s : State) (t : Byte) (c : Command) (payload : List Byte) (ack : Nat) (slot idx : Nat) :
    (s.encode t c payload ack).read slot idx = s.read slot idx := rfl

@[simp] theorem State.encode_mirrorByte (s : State) (t : Byte) (c : Command) (payload : List Byte) (ack : Nat) (slot idx : Nat) :
    (s.encode t c payload ack).mirrorByte slot idx = s.mirrorByte slot idx := rfl

@[simp] theorem State.encode_attached (s : State) (t : Byte) (c : Command) (payload : List Byte) (ack : Nat) (id : Nat) :
    (s.encode t c payload ack).attached id = s.attached id := rfl

@[simp] theorem State.encode_frameBody (s : State) (t : Byte) (c : Command) (payload : List Byte) (ack : Nat) (u : Byte) (k : Command) (P : List Byte) :
    (s.encode t c payload ack).frameBody u k P = s.frameBody u k P := rfl

@[simp] theorem State.encode_answer (s : State) (t : Byte) (c : Command) (payload : List Byte) (ack : Nat) (k : Nat) :
    (s.encode t c payload ack).answer k = s.answer k := rfl

@[simp] theorem State.send_read (s : State) (slot idx : Nat) :
    (s.send).read slot idx = s.read slot idx := rfl

@[simp] theorem State.send_mirrorByte (s : State) (slot idx : Nat) :
    (s.send).mirrorByte slot idx = s.mirrorByte slot idx := rfl

@[simp] theorem State.send_attached (s : State) (id : Nat) :
    (s.send).attached id = s.attached id := rfl

@[simp] theorem State.send_frameBody (s : State) (u : Byte) (k : Command) (P : List Byte) :
    (s.send).frameBody u k P = s.frameBody u k P := rfl

@[simp] theorem State.send_answer (s : State) (k : Nat) :
    (s.send).answer k = s.answer k := rfl

@[simp] theorem State.checkCrc_read (s : State) (slot idx : Nat) :
    (s.checkCrc).read slot idx = s.read slot idx := rfl

@[simp] theorem State.checkCrc_mirrorByte (s : State) (slot idx : Nat) :
    (s.checkCrc).mirrorByte slot idx = s.mirrorByte slot idx := rfl

@[simp] theorem State.checkCrc_attached (s : State) (id : Nat) :
    (s.checkCrc).attached id = s.attached id := rfl

@[simp] theorem State.checkCrc_frameBody (s : State) (u : Byte) (k : Command) (P : List Byte) :
    (s.checkCrc).frameBody u k P = s.frameBody u k P := rfl

@[simp] theorem State.checkCrc_answer (s : State) (k : Nat) :
    (s.checkCrc).answer k = s.answer k := rfl

@[simp] theorem State.receive_read (s : State) (n : Nat) (slot idx : Nat) :
    (s.receive n).read slot idx = s.read slot idx := rfl

@[simp] theorem State.receive_mirrorByte (s : State) (n : Nat) (slot idx : Nat) :
    (s.receive n).mirrorByte slot idx = s.mirrorByte slot idx := rfl

@[simp] theorem State.receive_attached (s : State) (n : Nat) (id : Nat) :
    (s.receive n).attached id = s.attached id := rfl

@[simp] theorem State.receive_frameBody (s : State) (n : Nat) (u : Byte) (k : Command) (P : List Byte) :
    (s.receive n).frameBody u k P = s.frameBody u k P := rfl

@[simp] theorem State.readReply_read (s : State) (n : Nat) (slot idx : Nat) :
    (s.readReply n).read slot idx = s.read slot idx := rfl

@[simp] theorem State.readReply_mirrorByte (s : State) (n : Nat) (slot idx : Nat) :
    (s.readReply n).mirrorByte slot idx = s.mirrorByte slot idx := rfl

@[simp] theorem State.readReply_attached (s : State) (n : Nat) (id : Nat) :
    (s.readReply n).attached id = s.attached id := rfl

@[simp] theorem State.readReply_frameBody (s : State) (n : Nat) (u : Byte) (k : Command) (P : List Byte) :
    (s.readReply n).frameBody u k P = s.frameBody u k P := rfl

/-- A read of n bytes is answered with at most n (20_memory.md R96). -/
theorem State.length_answer_le (s : State) (n : Nat) : (s.answer n).length ≤ n := by simp [State.answer]

/-! ## Requests -/

/-- A request is one encode and one send (42_bus_master.md R257). -/
theorem State.requestHdr_eq (s : State) (t : Nat) (c : Command) (second : Bool) :
    s.requestHdr t c second = ((s.setPhase .encode).encode (BitVec.ofNat 8 t) c [] (hdrAck second c)).send := rfl

theorem State.requestWrite_eq (s : State) (t : Nat) (pairs : List (Int × Value)) (ack : Bool) :
    s.requestWrite t pairs ack
      = ((s.setPhase .encode).encode (BitVec.ofNat 8 t) (if ack then .writeAck else .write)
          (writePayload s.cfg.regmap pairs)
          (if ack then hdrLen + (writePayload s.cfg.regmap pairs).length + crcLen else 0)).send := rfl

theorem State.requestRead_eq (s : State) (t : Nat) (indices : List Int) :
    s.requestRead t indices
      = ((s.setPhase .encode).encode (BitVec.ofNat 8 t) .read (readPayload indices)
          (readAckLen s.cfg.regmap indices)).send := rfl

theorem State.requestSync_eq (s : State) (i : Int) (groups : List (Int × Value)) :
    s.requestSync i groups
      = ((s.setPhase .encode).encode (BitVec.ofNat 8 bcast) .syncWrite (syncPayload s.cfg.regmap i groups) 0).send := rfl

/-! ## The acknowledgment protocol -/

/-- The mirrors after a classified reply (42_bus_master.md R280, 41_codec.md R231, R232). -/
@[simp] theorem State.takeReply_dt (s : State) (r : Reply) :
    (s.takeReply r).1.dt = match r with
      | .decoded slot ws => if slot = bcast then s.dt else writeAll s.cfg s.dt slot ws
      | _ => s.dt := by cases r <;> simp [State.takeReply]

/-- The answer of the protocol for a classified reply (42_bus_master.md R280). -/
@[simp] theorem State.takeReply_ack (s : State) (r : Reply) :
    (s.takeReply r).2 = match r with
      | .short => .fail
      | .badCrc => .fail
      | .plain => .ok
      | .framing => .framing
      | .decoded _ _ => .ok := by cases r <;> rfl

/-- The protocol ends in CHECK or, where the reply is decoded, in DECODE (42_bus_master.md R258, R280). -/
@[simp] theorem State.takeReply_phasePath (s : State) (r : Reply) :
    (s.takeReply r).1.phasePath = match r with
      | .framing => s.phasePath ++ [.decode]
      | .decoded _ _ => s.phasePath ++ [.decode]
      | _ => s.phasePath := by cases r <;> simp [State.takeReply]

@[simp] theorem State.takeReply_cfg (s : State) (r : Reply) : (s.takeReply r).1.cfg = s.cfg := by
  cases r <;> simp [State.takeReply]

@[simp] theorem State.takeReply_baudRate (s : State) (r : Reply) : (s.takeReply r).1.baudRate = s.baudRate := by
  cases r <;> simp [State.takeReply]

@[simp] theorem State.takeReply_settleDelay (s : State) (r : Reply) : (s.takeReply r).1.settleDelay = s.settleDelay := by
  cases r <;> simp [State.takeReply]

@[simp] theorem State.takeReply_lastScanned (s : State) (r : Reply) : (s.takeReply r).1.lastScanned = s.lastScanned := by
  cases r <;> simp [State.takeReply]

@[simp] theorem State.takeReply_ackSize (s : State) (r : Reply) : (s.takeReply r).1.ackSize = s.ackSize := by
  cases r <;> simp [State.takeReply]

@[simp] theorem State.takeReply_portOpen (s : State) (r : Reply) : (s.takeReply r).1.portOpen = s.portOpen := by
  cases r <;> simp [State.takeReply]

@[simp] theorem State.takeReply_timeoutSel (s : State) (r : Reply) : (s.takeReply r).1.timeoutSel = s.timeoutSel := by
  cases r <;> simp [State.takeReply]

@[simp] theorem State.takeReply_op (s : State) (r : Reply) : (s.takeReply r).1.op = s.op := by
  cases r <;> simp [State.takeReply]

@[simp] theorem State.takeReply_txbuf (s : State) (r : Reply) : (s.takeReply r).1.txbuf = s.txbuf := by
  cases r <;> simp [State.takeReply]

@[simp] theorem State.takeReply_rxbuf (s : State) (r : Reply) : (s.takeReply r).1.rxbuf = s.rxbuf := by
  cases r <;> simp [State.takeReply]

@[simp] theorem State.takeReply_result (s : State) (r : Reply) : (s.takeReply r).1.result = s.result := by
  cases r <;> simp [State.takeReply]

@[simp] theorem State.takeReply_trace (s : State) (r : Reply) : (s.takeReply r).1.trace = s.trace := by
  cases r <;> simp [State.takeReply]

@[simp] theorem State.takeReply_pending (s : State) (r : Reply) : (s.takeReply r).1.pending = s.pending := by
  cases r <;> simp [State.takeReply]

@[simp] theorem State.takeReply_internal (s : State) (r : Reply) : (s.takeReply r).1.internal = s.internal := by
  cases r <;> simp [State.takeReply]

@[simp] theorem State.takeReply_busReplies (s : State) (r : Reply) : (s.takeReply r).1.busReplies = s.busReplies := by
  cases r <;> simp [State.takeReply]

@[simp] theorem State.takeReply_busReads (s : State) (r : Reply) : (s.takeReply r).1.busReads = s.busReads := by
  cases r <;> simp [State.takeReply]

@[simp] theorem State.takeReply_crcOut (s : State) (r : Reply) : (s.takeReply r).1.crcOut = s.crcOut := by
  cases r <;> simp [State.takeReply]

/-- The protocol reads `ack_size` bytes once and takes the reply by its classification (42_bus_master.md R280). -/
theorem State.ackProtocol_eq (s : State) :
    s.ackProtocol = (s.readReply s.ackSize).takeReply (classifyReply s.cfg.regmap s.ackSize (s.answer s.ackSize)) := rfl

@[simp] theorem State.ackProtocol_cfg (s : State) :
    s.ackProtocol.1.cfg = s.cfg := by simp [State.ackProtocol_eq]

@[simp] theorem State.ackProtocol_baudRate (s : State) :
    s.ackProtocol.1.baudRate = s.baudRate := by simp [State.ackProtocol_eq]

@[simp] theorem State.ackProtocol_settleDelay (s : State) :
    s.ackProtocol.1.settleDelay = s.settleDelay := by simp [State.ackProtocol_eq]

@[simp] theorem State.ackProtocol_lastScanned (s : State) :
    s.ackProtocol.1.lastScanned = s.lastScanned := by simp [State.ackProtocol_eq]

@[simp] theorem State.ackProtocol_ackSize (s : State) :
    s.ackProtocol.1.ackSize = s.ackSize := by simp [State.ackProtocol_eq]

@[simp] theorem State.ackProtocol_portOpen (s : State) :
    s.ackProtocol.1.portOpen = s.portOpen := by simp [State.ackProtocol_eq]

@[simp] theorem State.ackProtocol_timeoutSel (s : State) :
    s.ackProtocol.1.timeoutSel = s.timeoutSel := by simp [State.ackProtocol_eq]

@[simp] theorem State.ackProtocol_op (s : State) :
    s.ackProtocol.1.op = s.op := by simp [State.ackProtocol_eq]

@[simp] theorem State.ackProtocol_txbuf (s : State) :
    s.ackProtocol.1.txbuf = s.txbuf := by simp [State.ackProtocol_eq]

@[simp] theorem State.ackProtocol_rxbuf (s : State) :
    s.ackProtocol.1.rxbuf = s.answer s.ackSize := by simp [State.ackProtocol_eq]

@[simp] theorem State.ackProtocol_result (s : State) :
    s.ackProtocol.1.result = s.result := by simp [State.ackProtocol_eq]

@[simp] theorem State.ackProtocol_trace (s : State) :
    s.ackProtocol.1.trace = s.trace ++ [.rx s.ackSize (s.answer s.ackSize)] := by simp [State.ackProtocol_eq]

@[simp] theorem State.ackProtocol_pending (s : State) :
    s.ackProtocol.1.pending = s.pending := by simp [State.ackProtocol_eq]

@[simp] theorem State.ackProtocol_internal (s : State) :
    s.ackProtocol.1.internal = s.internal := by simp [State.ackProtocol_eq]

@[simp] theorem State.ackProtocol_busReplies (s : State) :
    s.ackProtocol.1.busReplies = s.busReplies.tail := by simp [State.ackProtocol_eq]

@[simp] theorem State.ackProtocol_busReads (s : State) :
    s.ackProtocol.1.busReads = s.busReads + 1 := by simp [State.ackProtocol_eq]

@[simp] theorem State.ackProtocol_crcOut (s : State) :
    s.ackProtocol.1.crcOut = s.crcOut := by simp [State.ackProtocol_eq]

/-- The classification of a reply that is not accepted (42_bus_master.md R281, R282). -/
theorem classifyReply_of_not_accepted {rm : RegMap} {n : Nat} {L : List Byte} (h : (decide (n ≤ L.length) && crcOk L) = false) :
    classifyReply rm n L = .short ∨ classifyReply rm n L = .badCrc := by
  unfold classifyReply
  by_cases h1 : L.length < n
  · simp [h1]
  · have h2 : crcOk L = false := by simpa [Nat.not_lt.mp h1] using h
    simp [h1, h2]

/-- The classification of an accepted reply (42_bus_master.md R283, 41_codec.md R231 to R233). -/
theorem classifyReply_of_accepted {rm : RegMap} {n : Nat} {L : List Byte} (h : (decide (n ≤ L.length) && crcOk L) = true) :
    classifyReply rm n L = if (frameByte L 3).toNat ≤ minFrame then .plain
      else match parsePayload rm (framePayload L) with
        | some ws => .decoded (frameByte L 1).toNat ws
        | none => .framing := by
  simp only [Bool.and_eq_true, decide_eq_true_eq] at h
  unfold classifyReply
  refine (if_neg (by omega)).trans ((if_neg (by simp [h.2])).trans ?_)
  cases parsePayload rm (framePayload L) <;> rfl

/-- A ten-byte reply carries no payload: nothing is decoded but the empty list (42_bus_master.md R269). -/
theorem classifyReply_of_length_le {rm : RegMap} {n : Nat} {L : List Byte} (h : L.length ≤ 10) :
    classifyReply rm n L = .short ∨ classifyReply rm n L = .badCrc ∨ classifyReply rm n L = .plain
      ∨ classifyReply rm n L = .decoded (frameByte L 1).toNat [] := by
  have hp : framePayload L = [] := by
    apply List.eq_nil_of_length_eq_zero
    simp [framePayload]
    omega
  unfold classifyReply
  split
  · simp
  · split
    · simp
    · split
      · simp
      · simp [hp, parsePayload, parseFuel]

end Sys2Proof.Machine
end

