-- ==== Sys2Proof/Laws/Codec.lean ====
section
/-! SUPPORT. What the codec writes: the lengths of fields and payloads, a payload as one concatenation, the header bytes of an
encoded frame, and the two answers of a codec request. -/

namespace Sys2Proof.Machine

@[simp] theorem length_encField (t : Prim) (v : Int) : (encField t v).length = t.width := by simp [encField]

/-- A value of the right shape has one field for each of the format (10_state.md R42, 30_encoding.md R116). -/
theorem length_of_shapeOk {fmt : List Prim} {v : Value} (h : shapeOk fmt v = true) : fmt.length = v.fields.length := by
  unfold shapeOk at h
  split at h
  · rfl
  · simp only [beq_iff_eq] at h
    simp [Value.fields, h]
  · cases h

/-- An encodable value takes its descriptor's width (30_encoding.md R116). -/
theorem length_encValueAt {rm : RegMap} {i : Int} {v : Value} (h : rm.encodable i v = true) :
    (rm.encValueAt i v).length = rm.widthInt i := by
  have hf : ∀ (fmt : List Prim) (vs : List Int), fmt.length = vs.length → (encFields fmt vs).length = fmtWidth fmt := by
    intro fmt
    induction fmt with
    | nil => intro vs _; cases vs <;> rfl
    | cons t ts ih =>
      intro vs hl
      cases vs with
      | nil => cases hl
      | cons v vs =>
        simp only [encFields, fmtWidth, List.length_append, length_encField]
        rw [ih vs (by simpa using hl)]
  unfold RegMap.encodable at h
  unfold RegMap.encValueAt RegMap.widthInt
  cases hd : rm.findInt i with
  | none => rw [hd] at h; cases h
  | some d =>
    rw [hd] at h
    simp only [fits, Bool.and_eq_true] at h
    exact hf _ _ (length_of_shapeOk h.1)

/-- The payload of a write, pair by pair (30_encoding.md R122). -/
theorem writePayload_eq_flatMap (rm : RegMap) (ps : List (Int × Value)) :
    writePayload rm ps = ps.flatMap (fun q => BitVec.ofInt 8 q.1 :: rm.encValueAt q.1 q.2) := by
  induction ps with
  | nil => rfl
  | cons q ps ih => simp [writePayload, ih]

/-- The payload of a write has an Index byte and a value for each pair (41_codec.md R208). -/
theorem length_writePayload {rm : RegMap} {ps : List (Int × Value)} (h : ∀ q ∈ ps, rm.encodable q.1 q.2 = true) :
    (writePayload rm ps).length = sizeOfIndices rm (ps.map (·.1)) := by
  induction ps with
  | nil => rfl
  | cons q ps ih =>
    obtain ⟨i, v⟩ := q
    have hq := length_encValueAt (h (i, v) List.mem_cons_self)
    simp [writePayload, sizeOfIndices, hq, ih (fun q hq => h q (List.mem_cons_of_mem _ hq))]
    omega

/-- The bytes before the CRC of an encoded frame: six of header, then the payload (41_codec.md R201, R202). -/
@[simp] theorem State.length_frameBody (s : State) (t : Byte) (c : Command) (P : List Byte) :
    (s.frameBody t c P).length = 6 + P.length := by
  simp [State.frameBody]
  omega

/-- Every target but 255 is unicast (30_encoding.md R152). -/
theorem unicastTarget_iff (t : Byte) : unicastTarget t = true ↔ t ≠ 0xFF#8 := by revert t; decide

/-- A header-only codec request encodes its frame, or stops because its target is 255 (log 11). -/
theorem codecHdr_cases (t : Byte) (c : Command) (second : Bool) (s : State) :
    (t ≠ 0xFF#8 ∧ codecHdr t c second s = .next (s.encHdr t c second))
    ∨ (t = 0xFF#8 ∧ codecHdr t c second s = .fault .broadcastTarget) := by
  by_cases h : t = 0xFF#8
  · subst h; exact .inr ⟨rfl, rfl⟩
  · exact .inl ⟨h, if_pos ((unicastTarget_iff t).mpr h)⟩

/-- A READ at the codec encodes its frame, or stops because its target is 255 or because it has no frame (log 11). -/
theorem execFrameRead_cases (t : Byte) (indices : List Int) (s : State) :
    (t ≠ 0xFF#8 ∧ readEncodable s.cfg.regmap indices = true ∧ execFrameRead t indices s = .next (s.encRead t indices))
    ∨ (t = 0xFF#8 ∧ execFrameRead t indices s = .fault .broadcastTarget)
    ∨ (t ≠ 0xFF#8 ∧ readEncodable s.cfg.regmap indices = false ∧ execFrameRead t indices s = .fault .noEncoding) := by
  unfold execFrameRead
  by_cases h : t = 0xFF#8
  · subst h; exact .inr (.inl ⟨rfl, rfl⟩)
  · rw [if_pos ((unicastTarget_iff t).mpr h)]
    cases hr : readEncodable s.cfg.regmap indices
    · exact .inr (.inr ⟨h, rfl, rfl⟩)
    · exact .inl ⟨h, rfl, rfl⟩

/-- A write request at the codec encodes its frame, or stops because it has none (log 11). -/
theorem codecWrite_cases (t : Byte) (pairs : List (Int × Value)) (ack : Bool) (s : State) :
    (writeEncodable s.cfg.regmap pairs = true ∧ codecWrite t pairs ack s = .next (s.encWrite t pairs ack))
    ∨ (writeEncodable s.cfg.regmap pairs = false ∧ codecWrite t pairs ack s = .fault .noEncoding) := by
  unfold codecWrite
  cases writeEncodable s.cfg.regmap pairs <;> simp

/-- A SYNC_WRITE at the codec encodes its frame, or stops because it has none (log 11). -/
theorem execFrameSyncWrite_cases (i : Int) (groups : List (Int × Value)) (s : State) :
    (syncEncodable s.cfg.regmap i groups = true ∧ execFrameSyncWrite i groups s = .next (s.encSync i groups))
    ∨ (syncEncodable s.cfg.regmap i groups = false ∧ execFrameSyncWrite i groups s = .fault .noEncoding) := by
  unfold execFrameSyncWrite
  cases syncEncodable s.cfg.regmap i groups <;> simp

end Sys2Proof.Machine
end

