-- ==== Sys2Proof/Laws/DeviceTable.lean ====
section
/-! SUPPORT. The device table: a read after a write, what a write leaves alone, and that every operation on the table keeps
its canonical form and never lists a cell of slot 255. -/

namespace Sys2Proof.Machine

/-! ## Cell lists -/

theorem rising_iff_pairwise (m : Cells) : rising m = true ↔ m.Pairwise (fun c d => c.1 < d.1) := by
  induction m with
  | nil => simp [rising]
  | cons c rest ih =>
    obtain ⟨a, v⟩ := c
    cases rest with
    | nil => simp [rising]
    | cons d rest =>
      obtain ⟨b, w⟩ := d
      simp only [rising, Bool.and_eq_true, decide_eq_true_eq, ih, List.pairwise_cons, List.mem_cons, forall_eq_or_imp]
      constructor
      · rintro ⟨hab, hrest, hp⟩
        exact ⟨⟨hab, fun c hc => lt_trans hab (hrest c hc)⟩, hrest, hp⟩
      · rintro ⟨⟨hab, -⟩, hrest, hp⟩
        exact ⟨hab, hrest, hp⟩

theorem cellsWf_iff (p : Params) (m : Cells) :
    cellsWf p m = true ↔ m.Pairwise (fun c d => c.1 < d.1) ∧ ∀ c ∈ m, cellOk p c = true := by
  simp [cellsWf, rising_iff_pairwise]

@[simp] theorem lookupCell_nil (a : Nat) : lookupCell a [] = none := rfl

theorem lookupCell_insertCell_same (a : Nat) (v : Value) (m : Cells) : lookupCell a (insertCell a v m) = some v := by
  induction m with
  | nil => simp [insertCell, lookupCell]
  | cons c rest ih =>
    obtain ⟨b, w⟩ := c
    simp only [insertCell]
    split
    · simp [lookupCell]
    · split
      · simp [lookupCell]
      · rename_i h1 h2
        simp [lookupCell, ih, Ne.symm h2]

theorem lookupCell_insertCell_ne {a b : Nat} (h : b ≠ a) (v : Value) (m : Cells) :
    lookupCell b (insertCell a v m) = lookupCell b m := by
  induction m with
  | nil => simp [insertCell, lookupCell, Ne.symm h]
  | cons c rest ih =>
    obtain ⟨d, w⟩ := c
    simp only [insertCell]
    split
    · simp [lookupCell, Ne.symm h]
    · split
      · rename_i h1 h2
        subst h2
        simp [lookupCell, Ne.symm h]
      · simp [lookupCell, ih]

theorem lookupCell_filter_of_false {a : Nat} (q : Nat × Value → Bool) (h : ∀ v, q (a, v) = false) (m : Cells) :
    lookupCell a (m.filter q) = none := by
  induction m with
  | nil => rfl
  | cons c rest ih =>
    obtain ⟨b, w⟩ := c
    by_cases hab : b = a
    · subst hab; simp [h w, ih]
    · by_cases hq : q (b, w) = true
      · simp [hq, lookupCell, hab, ih]
      · simp [hq, ih]

theorem lookupCell_filter_of_true {a : Nat} (q : Nat × Value → Bool) (h : ∀ v, q (a, v) = true) (m : Cells) :
    lookupCell a (m.filter q) = lookupCell a m := by
  induction m with
  | nil => rfl
  | cons c rest ih =>
    obtain ⟨b, w⟩ := c
    by_cases hab : b = a
    · subst hab; simp [h w, lookupCell]
    · by_cases hq : q (b, w) = true
      · simp [hq, lookupCell, hab, ih]
      · simp [hq, lookupCell, hab, ih]

theorem lookupCell_eraseCell_same (a : Nat) (m : Cells) : lookupCell a (eraseCell a m) = none :=
  lookupCell_filter_of_false _ (by simp) m

theorem lookupCell_eraseCell_ne {a b : Nat} (h : b ≠ a) (m : Cells) : lookupCell b (eraseCell a m) = lookupCell b m :=
  lookupCell_filter_of_true _ (fun _ => by simpa using h) m

theorem cellAddr_inj {slot idx slot' idx' : Nat} (h : idx < 256) (h' : idx' < 256)
    (heq : cellAddr slot idx = cellAddr slot' idx') : slot = slot' ∧ idx = idx' := by
  unfold cellAddr at heq; omega

theorem cellAddr_div {slot idx : Nat} (h : idx < 256) : cellAddr slot idx / 256 = slot := by unfold cellAddr; omega

theorem cellAddr_mod {slot idx : Nat} (h : idx < 256) : cellAddr slot idx % 256 = idx := by unfold cellAddr; omega

/-- The descriptor of a cell of one of the 256 slots (10_state.md R41, R42). -/
theorem cellDesc_cellAddr (p : Params) {slot idx : Nat} (hs : slot < 256) (hi : idx < 256) :
    cellDesc p (cellAddr slot idx) = p.regmap.find idx := by
  have h : cellAddr slot idx < 256 * nSlots := by unfold cellAddr nSlots; omega
  simp [cellDesc, h, cellAddr_mod hi]

theorem cellDesc_eq_none_of_le (p : Params) {slot : Nat} (idx : Nat) (hs : 256 ≤ slot) :
    cellDesc p (cellAddr slot idx) = none := by
  have h : ¬ cellAddr slot idx < 256 * nSlots := by unfold cellAddr nSlots; omega
  simp [cellDesc, h]

/-! ## Reads -/

theorem readCells_eq (p : Params) (m : Cells) {slot idx : Nat} (hs : slot < 256) (hi : idx < 256) :
    readCells p m slot idx
      = (p.regmap.find idx).map (fun d => (lookupCell (cellAddr slot idx) m).getD (unlistedValue p d)) := by
  simp only [readCells, if_neg (Nat.not_le.mpr hi), cellDesc_cellAddr p hs hi]
  cases p.regmap.find idx <;> rfl

theorem readCells_of_idx_le (p : Params) (m : Cells) (slot : Nat) {idx : Nat} (h : 256 ≤ idx) :
    readCells p m slot idx = none := by simp [readCells, h]

theorem readCells_of_slot_le (p : Params) (m : Cells) {slot : Nat} (idx : Nat) (h : 256 ≤ slot) :
    readCells p m slot idx = none := by
  simp [readCells, cellDesc_eq_none_of_le p idx h]

/-- Two lists that give an address the same value read the same there. -/
theorem readCells_congr (p : Params) {m m' : Cells} {slot idx : Nat}
    (h : lookupCell (cellAddr slot idx) m' = lookupCell (cellAddr slot idx) m) :
    readCells p m' slot idx = readCells p m slot idx := by simp [readCells, h]

/-! ## Writes -/

/-- A read after a write to the same index gives the value written (10_state.md R44). -/
theorem readCells_writeCells_same (p : Params) (m : Cells) {slot idx : Nat} (v : Value) (hs : slot < 256) (hi : idx < 256)
    (hd : (p.regmap.find idx).isSome = true) : readCells p (writeCells p m slot idx v) slot idx = some v := by
  obtain ⟨d, hd⟩ := Option.isSome_iff_exists.mp hd
  rw [readCells_eq p _ hs hi, hd]
  simp only [writeCells, if_neg (Nat.not_le.mpr hi), cellDesc_cellAddr p hs hi, hd, Option.map_some, Option.some.injEq]
  split
  · rename_i hv
    simp [lookupCell_eraseCell_same, hv]
  · simp [lookupCell_insertCell_same]

/-- A write leaves every other cell's listed value alone. -/
theorem lookupCell_writeCells_ne (p : Params) (m : Cells) {slot idx a : Nat} (v : Value)
    (h : idx < 256 → a ≠ cellAddr slot idx) : lookupCell a (writeCells p m slot idx v) = lookupCell a m := by
  simp only [writeCells]
  split
  · rfl
  · rename_i hi
    have h := h (by omega)
    split
    · split
      · exact lookupCell_eraseCell_ne h m
      · exact lookupCell_insertCell_ne h v m
    · rfl

/-- A write leaves every other index of every slot as it was (10_state.md R44). -/
theorem readCells_writeCells_ne (p : Params) (m : Cells) {slot idx slot' idx' : Nat} (v : Value)
    (h : (slot', idx') ≠ (slot, idx)) : readCells p (writeCells p m slot idx v) slot' idx' = readCells p m slot' idx' := by
  by_cases hi' : 256 ≤ idx'
  · simp [readCells_of_idx_le p _ _ hi']
  · apply readCells_congr
    apply lookupCell_writeCells_ne
    intro hi heq
    obtain ⟨h1, h2⟩ := cellAddr_inj (by omega) hi heq
    exact h (by rw [h1, h2])

theorem writeValue_of_ne {p : Params} {idx : Nat} (h : idx ≠ p.regmap.crcValue) (m : Cells) (slot : Nat) (v : Value) :
    writeValue p m slot idx v = writeCells p m slot idx v := if_neg h

/-- A write to CRCValue is discarded (10_state.md R64, log 22). -/
@[simp] theorem writeValue_crcValue (p : Params) (m : Cells) (slot : Nat) (v : Value) :
    writeValue p m slot p.regmap.crcValue v = m := if_pos rfl

/-- What a write of a mirror value can do: nothing, for CRCValue, or set the cell. -/
theorem writeValue_cases (p : Params) (m : Cells) (slot idx : Nat) (v : Value) :
    (idx = p.regmap.crcValue ∧ writeValue p m slot idx v = m)
    ∨ (idx ≠ p.regmap.crcValue ∧ writeValue p m slot idx v = writeCells p m slot idx v) := by
  by_cases h : idx = p.regmap.crcValue
  · exact .inl ⟨h, if_pos h⟩
  · exact .inr ⟨h, if_neg h⟩

/-- A write of a mirror value leaves every other index of every slot as it was. -/
theorem readCells_writeValue_ne (p : Params) (m : Cells) {slot idx slot' idx' : Nat} (v : Value)
    (h : (slot', idx') ≠ (slot, idx)) : readCells p (writeValue p m slot idx v) slot' idx' = readCells p m slot' idx' := by
  obtain ⟨-, e⟩ | ⟨-, e⟩ := writeValue_cases p m slot idx v <;> rw [e]
  exact readCells_writeCells_ne p m v h

theorem readCells_writeAll_of_slot_ne (p : Params) {slot slot' : Nat} (h : slot' ≠ slot) (idx' : Nat)
    (ws : List (Nat × Value)) (m : Cells) : readCells p (writeAll p m slot ws) slot' idx' = readCells p m slot' idx' := by
  induction ws generalizing m with
  | nil => rfl
  | cons w ws ih =>
    obtain ⟨i, v⟩ := w
    rw [writeAll, ih, readCells_writeValue_ne p m v (by simp [h])]

@[simp] theorem writeAll_nil (p : Params) (m : Cells) (slot : Nat) : writeAll p m slot [] = m := rfl

theorem writeAll_append (p : Params) (slot : Nat) (ws us : List (Nat × Value)) (m : Cells) :
    writeAll p m slot (ws ++ us) = writeAll p (writeAll p m slot ws) slot us := by
  induction ws generalizing m with
  | nil => rfl
  | cons w ws ih => simp [writeAll, ih]

/-! ## Whole slots -/

theorem lookupCell_clearSlot_of_eq {slot a : Nat} (h : a / 256 = slot) (m : Cells) : lookupCell a (clearSlot m slot) = none :=
  lookupCell_filter_of_false _ (by simp [h]) m

theorem lookupCell_clearSlot_of_ne {slot a : Nat} (h : a / 256 ≠ slot) (m : Cells) :
    lookupCell a (clearSlot m slot) = lookupCell a m :=
  lookupCell_filter_of_true _ (fun _ => by simpa using h) m

/-- A slot replaced by `fresh(id, fam)` holds the reset values, with DeviceID id and DeviceFamily fam (10_state.md R45). -/
theorem readCells_installFresh_same (p : Params) (m : Cells) {slot idx : Nat} (id : Nat) (fam : Byte) (hs : slot < 256)
    (hi : idx < 256) :
    readCells p (installFresh p m slot id fam) slot idx = (p.regmap.find idx).map (freshValue id fam) := by
  unfold installFresh
  cases hd : p.regmap.find idx with
  | none => rw [readCells_eq p _ hs hi, hd]; rfl
  | some d =>
    have hidx : d.index = idx := by simpa using List.find?_some hd
    by_cases h2 : idx = idxDeviceFamily
    · subst h2
      rw [readCells_writeCells_same p _ _ hs hi (by simp [hd])]
      simp [freshValue, hidx, idxDeviceFamily, idxDeviceID]
    · rw [readCells_writeCells_ne p _ _ (by simp [h2])]
      by_cases h1 : idx = idxDeviceID
      · subst h1
        rw [readCells_writeCells_same p _ _ hs hi (by simp [hd])]
        simp [freshValue, hidx]
      · rw [readCells_writeCells_ne p _ _ (by simp [h1]), readCells_eq p _ hs hi, hd]
        rw [lookupCell_clearSlot_of_eq (cellAddr_div hi)]
        simp [freshValue, unlistedValue, hidx, h1, h2]

/-- Replacing a slot leaves every other slot as it was (10_state.md R45). -/
theorem readCells_installFresh_ne (p : Params) (m : Cells) {slot slot' : Nat} (idx id : Nat) (fam : Byte)
    (h : slot' ≠ slot) : readCells p (installFresh p m slot id fam) slot' idx = readCells p m slot' idx := by
  by_cases hi : 256 ≤ idx
  · simp [readCells_of_idx_le p _ _ hi]
  · unfold installFresh
    rw [readCells_writeCells_ne p _ _ (by simp [h]), readCells_writeCells_ne p _ _ (by simp [h])]
    apply readCells_congr
    apply lookupCell_clearSlot_of_ne
    rw [cellAddr_div (by omega)]
    exact h

/-! ## The canonical form -/

theorem mem_insertCell {a : Nat} {v : Value} {m : Cells} {c : Nat × Value} (h : c ∈ insertCell a v m) :
    c = (a, v) ∨ c ∈ m := by
  induction m with
  | nil => simpa [insertCell] using h
  | cons d rest ih =>
    obtain ⟨b, w⟩ := d
    simp only [insertCell] at h
    split at h
    · simpa using h
    · split at h
      · simp only [List.mem_cons] at h ⊢
        rcases h with h | h
        · exact .inl h
        · exact .inr (.inr h)
      · simp only [List.mem_cons] at h ⊢
        rcases h with h | h
        · exact .inr (.inl h)
        · rcases ih h with h | h
          · exact .inl h
          · exact .inr (.inr h)

theorem pairwise_insertCell {a : Nat} {v : Value} {m : Cells} (h : m.Pairwise (fun c d => c.1 < d.1)) :
    (insertCell a v m).Pairwise (fun c d => c.1 < d.1) := by
  induction m with
  | nil => simp [insertCell]
  | cons d rest ih =>
    obtain ⟨b, w⟩ := d
    rw [List.pairwise_cons] at h
    simp only [insertCell]
    split
    · rename_i hab
      refine List.pairwise_cons.mpr ⟨?_, List.pairwise_cons.mpr h⟩
      intro c hc
      rcases List.mem_cons.mp hc with rfl | hc
      · exact hab
      · exact lt_trans hab (h.1 c hc)
    · split
      · rename_i hab
        subst hab
        exact List.pairwise_cons.mpr h
      · rename_i h1 h2
        refine List.pairwise_cons.mpr ⟨?_, ih h.2⟩
        intro c hc
        rcases mem_insertCell hc with rfl | hc
        · show b < a; omega
        · exact h.1 c hc

/-- A list without some of its cells stays in canonical form. -/
theorem cellsWf_filter {p : Params} {m : Cells} (q : Nat × Value → Bool) (h : cellsWf p m = true) :
    cellsWf p (m.filter q) = true := by
  rw [cellsWf_iff] at h ⊢
  exact ⟨h.1.filter q, fun c hc => h.2 c (List.mem_of_mem_filter hc)⟩

/-- A write of a value of the index's format keeps the canonical form (10_state.md R42, R43). -/
theorem cellsWf_writeCells {p : Params} {m : Cells} {slot idx : Nat} {v : Value} (h : cellsWf p m = true)
    (hv : ∀ d, p.regmap.find idx = some d → fits d.fmt v = true) : cellsWf p (writeCells p m slot idx v) = true := by
  simp only [writeCells]
  split
  · exact h
  · rename_i hi
    split
    · rename_i d hd
      split
      · exact cellsWf_filter _ h
      · rename_i hne
        have hfit : fits d.fmt v = true := by
          apply hv
          simp only [cellDesc] at hd
          split at hd
          · rwa [cellAddr_mod (by omega)] at hd
          · cases hd
        rw [cellsWf_iff] at h ⊢
        refine ⟨pairwise_insertCell h.1, fun c hc => ?_⟩
        rcases mem_insertCell hc with rfl | hc
        · simp [cellOk, hd, hfit, hne]
        · exact h.2 c hc
    · exact h

/-- Writing a list of values of their formats keeps the canonical form. -/
theorem cellsWf_writeAll {p : Params} {slot : Nat} {ws : List (Nat × Value)}
    (hv : ∀ w ∈ ws, ∀ d, p.regmap.find w.1 = some d → fits d.fmt w.2 = true) {m : Cells} (h : cellsWf p m = true) :
    cellsWf p (writeAll p m slot ws) = true := by
  induction ws generalizing m with
  | nil => exact h
  | cons w ws ih =>
    obtain ⟨i, v⟩ := w
    refine ih (fun w hw => hv w (List.mem_cons_of_mem _ hw)) ?_
    obtain ⟨-, e⟩ | ⟨-, e⟩ := writeValue_cases p m slot i v <;> rw [e]
    · exact h
    · exact cellsWf_writeCells h (hv (i, v) List.mem_cons_self)

/-- A one-byte index takes a byte (10_state.md R36, R43). -/
theorem fits_byte {n : Nat} (h : n ≤ 255) : fits [.u8] (.scalar n) = true := by
  simp [fits, shapeOk, fieldsInDomain, Value.fields, Prim.inDomain, Prim.signed, Prim.width]
  omega

/-- Replacing a slot keeps the canonical form, where DeviceID and DeviceFamily are one-byte indices (10_state.md R36,
R45). -/
theorem cellsWf_installFresh {p : Params} {m : Cells} {slot id : Nat} {fam : Byte} (h : cellsWf p m = true) (hid : id ≤ 255)
    (h1 : ∀ d, p.regmap.find idxDeviceID = some d → d.fmt = [.u8])
    (h2 : ∀ d, p.regmap.find idxDeviceFamily = some d → d.fmt = [.u8]) :
    cellsWf p (installFresh p m slot id fam) = true := by
  refine cellsWf_writeCells (cellsWf_writeCells (cellsWf_filter _ h) ?_) ?_
  · intro d hd; rw [h1 d hd]; exact fits_byte hid
  · intro d hd; rw [h2 d hd]; exact fits_byte (by have := fam.isLt; omega)

/-- A write to another slot lists no cell of slot 255 (10_state.md R47). -/
theorem below_writeCells {p : Params} {m : Cells} {slot idx : Nat} {v : Value} (h : ∀ c ∈ m, c.1 < cellAddr bcast 0)
    (hs : slot < bcast) : ∀ c ∈ writeCells p m slot idx v, c.1 < cellAddr bcast 0 := by
  intro c hc
  simp only [writeCells] at hc
  split at hc
  · exact h c hc
  · rename_i hi
    split at hc
    · split at hc
      · exact h c (List.mem_of_mem_filter hc)
      · rcases mem_insertCell hc with rfl | hc
        · unfold cellAddr bcast at *; omega
        · exact h c hc
    · exact h c hc

theorem below_writeAll {p : Params} {slot : Nat} (hs : slot < bcast) (ws : List (Nat × Value)) {m : Cells}
    (h : ∀ c ∈ m, c.1 < cellAddr bcast 0) : ∀ c ∈ writeAll p m slot ws, c.1 < cellAddr bcast 0 := by
  induction ws generalizing m with
  | nil => exact h
  | cons w ws ih =>
    refine ih ?_
    obtain ⟨-, e⟩ | ⟨-, e⟩ := writeValue_cases p m slot w.1 w.2 <;> rw [e]
    · exact h
    · exact below_writeCells h hs

theorem below_installFresh {p : Params} {m : Cells} {slot id : Nat} {fam : Byte} (h : ∀ c ∈ m, c.1 < cellAddr bcast 0)
    (hs : slot < bcast) : ∀ c ∈ installFresh p m slot id fam, c.1 < cellAddr bcast 0 :=
  below_writeCells (below_writeCells (fun c hc => h c (List.mem_of_mem_filter hc)) hs) hs

/-! ## CRCValue -/

/-- Where no cell of an index is listed, every slot reads there what an unlisted cell does. -/
theorem readCells_of_not_listed {p : Params} {m : Cells} {slot idx : Nat} (hs : slot < 256) (hi : idx < 256)
    (h : ∀ c ∈ m, c.1 % 256 ≠ idx) : readCells p m slot idx = (p.regmap.find idx).map (unlistedValue p) := by
  have hl : lookupCell (cellAddr slot idx) m = none := by
    induction m with
    | nil => rfl
    | cons c rest ih =>
      obtain ⟨b, w⟩ := c
      have hb := h (b, w) List.mem_cons_self
      rw [lookupCell, if_neg (fun e => hb (by rw [e]; exact cellAddr_mod hi))]
      exact ih fun c hc => h c (List.mem_cons_of_mem _ hc)
  rw [readCells_eq p m hs hi, hl]
  rfl

/-- A write of an index lists no cell of another one. -/
theorem notListed_writeCells {p : Params} {m : Cells} {slot idx k : Nat} {v : Value} (h : ∀ c ∈ m, c.1 % 256 ≠ k)
    (hk : idx ≠ k) : ∀ c ∈ writeCells p m slot idx v, c.1 % 256 ≠ k := by
  intro c hc
  simp only [writeCells] at hc
  split at hc
  · exact h c hc
  · rename_i hi
    split at hc
    · split at hc
      · exact h c (List.mem_of_mem_filter hc)
      · rcases mem_insertCell hc with rfl | hc
        · rw [cellAddr_mod (by omega)]; exact hk
        · exact h c hc
    · exact h c hc

/-- Writing mirror values never lists a cell of CRCValue (10_state.md R64, log 22). -/
theorem notListed_writeAll {p : Params} {slot : Nat} (ws : List (Nat × Value)) {m : Cells}
    (h : ∀ c ∈ m, c.1 % 256 ≠ p.regmap.crcValue) : ∀ c ∈ writeAll p m slot ws, c.1 % 256 ≠ p.regmap.crcValue := by
  induction ws generalizing m with
  | nil => exact h
  | cons w ws ih =>
    refine ih ?_
    obtain ⟨-, e⟩ | ⟨hne, e⟩ := writeValue_cases p m slot w.1 w.2 <;> rw [e]
    · exact h
    · exact notListed_writeCells h hne

/-- Replacing a slot never lists a cell of an index other than DeviceID and DeviceFamily. -/
theorem notListed_installFresh {p : Params} {m : Cells} {slot id k : Nat} {fam : Byte} (h : ∀ c ∈ m, c.1 % 256 ≠ k)
    (h1 : idxDeviceID ≠ k) (h2 : idxDeviceFamily ≠ k) : ∀ c ∈ installFresh p m slot id fam, c.1 % 256 ≠ k :=
  notListed_writeCells (notListed_writeCells (fun c hc => h c (List.mem_of_mem_filter hc)) h1) h2

/-! ## The sentinel -/

/-- The value an unlisted cell reads as is not listed. -/
theorem writeCells_of_unlisted {p : Params} {m : Cells} {slot idx : Nat} {v : Value}
    (h : ∀ d, p.regmap.find idx = some d → v = unlistedValue p d) : ∀ c ∈ writeCells p m slot idx v, c ∈ m := by
  intro c hc
  simp only [writeCells] at hc
  split at hc
  · exact hc
  · rename_i hi
    split at hc
    · rename_i d hd
      have hv : v = unlistedValue p d := by
        apply h
        simp only [cellDesc] at hd
        split at hd
        · rwa [cellAddr_mod (by omega)] at hd
        · cases hd
      rw [if_pos hv] at hc
      exact List.mem_of_mem_filter hc
    · exact hc

/-- A slot replaced by the sentinel lists nothing new (10_state.md R45, R47). -/
theorem mem_of_mem_installSentinel {p : Params} {m : Cells} {slot : Nat} :
    ∀ c ∈ installFresh p m slot bcast p.sentinelFamily, c ∈ m := by
  intro c hc
  have h1 : ∀ d, p.regmap.find idxDeviceFamily = some d → (.scalar (p.sentinelFamily.toNat : Int) : Value)
      = unlistedValue p d := by
    intro d hd
    have hidx : d.index = idxDeviceFamily := by simpa using List.find?_some hd
    simp [unlistedValue, freshValue, hidx, idxDeviceFamily, idxDeviceID]
  have h2 : ∀ d, p.regmap.find idxDeviceID = some d → (.scalar ((bcast : Nat) : Int) : Value) = unlistedValue p d := by
    intro d hd
    have hidx : d.index = idxDeviceID := by simpa using List.find?_some hd
    simp [unlistedValue, freshValue, hidx]
  exact List.mem_of_mem_filter (writeCells_of_unlisted h2 c (writeCells_of_unlisted h1 c hc))

/-- The device table after reset is in canonical form (10_state.md R63). -/
theorem cellsWf_resetWith (p : Params) : cellsWf p (State.resetWith p).dt = true := rfl

/-- The device table after reset is in canonical form (10_state.md R63). -/
theorem cellsWf_reset : cellsWf State.reset.cfg State.reset.dt = true := rfl

end Sys2Proof.Machine
end

