-- ==== Sys2Proof/Laws/HostOps.lean ====
section
/-! SUPPORT. Every host operation as one shape: its checks and its body (42_bus_master.md R258), so that a statement over all
of them is proved from `runOp_cases` and one fact per body; and what each check list passing means. -/

namespace Sys2Proof.Machine

/-- The checks of a host operation (60_exceptions.md R377); none for an instruction of an internal port. -/
def hostCheck (i : Instr) (s : State) : Option ErrorCode :=
  match i with
  | .attach id family => checkAttach id family
  | .detach id => checkDetach id
  | .setVariables id pairs _ => checkSetVariables s id pairs
  | .getVariables id indices => checkGetVariables s id indices
  | .setVariablesSync index groups => checkSetVariablesSync s index groups
  | .ping id => checkUnicast s id
  | .reboot id => checkUnicast s id
  | .hardReset id => checkUnicast s id
  | .eepromWrite id _ => checkUnicast s id
  | .tune id => checkUnicast s id
  | .resetEncoder id => checkUnicast s id
  | .enterBootloader id => checkUnicast s id
  | .scan => checkPort s
  | .scanModules id => checkUnicast s id
  | .getDriverInfo id => checkGetVariables s id (versionIndices s.cfg)
  | .updateMasterBaudrate baud => checkBaud baud
  | .updateDriverBaudrate id baud => checkDriverBaud s id baud
  | .getButton id m => checkGetter s .button id m
  | .getLight id m => checkGetter s .light id m
  | .setBuzzer id m v => checkSetter s .buzzer id m none v
  | .getJoystick id m => checkGetter s .joystick id m
  | .getDistance id m => checkGetter s .distance id m
  | .getQtr id m => checkGetter s .qtr id m
  | .setServo id m v => checkSetter s .servo id m (checkByte v) (.scalar v)
  | .getPotentiometer id m => checkGetter s .potentiometer id m
  | .setRgb id m r g b =>
    checkSetter s .rgb id m (firstError [checkByte r, checkByte g, checkByte b]) (.scalar (packRgb r g b))
  | .getImu id m => checkGetter s .imu id m
  | _ => none

/-- The body of a host operation accepted by a block of configuration p; of an instruction of an internal port, nothing. -/
def hostBody (p : Params) (i : Instr) (s : State) : State × Result :=
  match i with
  | .attach id family => (s.install id.toNat id.toNat (BitVec.ofInt 8 family), .done)
  | .detach id => (s.installSentinel id.toNat, .done)
  | .setVariables id pairs ack => bodySetVariables id.toNat pairs ack s
  | .getVariables id indices => bodyGetVariables id.toNat indices s
  | .setVariablesSync index groups => (s.requestSync index groups, .none)
  | .ping id => bodyAcked id.toNat .ping s
  | .reboot id => bodyCommand id.toNat .reboot s
  | .hardReset id => bodyCommand id.toNat .hardReset s
  | .eepromWrite id ack => (if ack then bodyAcked id.toNat .eepromWriteAck else bodyCommand id.toNat .eepromWrite) s
  | .tune id => bodyCommand id.toNat .tune s
  | .resetEncoder id => bodyCommand id.toNat .resetEnc s
  | .enterBootloader id => ((s.requestHdr id.toNat .blJump false).closePort, .done)
  | .scan => bodyScan s
  | .scanModules id => moduleScanResult (moduleScanReply id.toNat s)
  | .getDriverInfo id =>
    ((bodyGetVariables id.toNat (versionIndices s.cfg) s).1,
      toVersions (bodyGetVariables id.toNat (versionIndices s.cfg) s).2)
  | .updateMasterBaudrate baud => (s.reopenAt baud.toNat, .done)
  | .updateDriverBaudrate id baud => bodyDriverBaud id.toNat baud s
  | .getButton id m => bodyGetter .button id m (fun v => v) s
  | .getLight id m => bodyGetter .light id m (fun v => v) s
  | .setBuzzer id m v => bodySetter .buzzer id m v s
  | .getJoystick id m => bodyGetter .joystick id m (fun v => v) s
  | .getDistance id m => bodyGetter .distance id m (fun v => v) s
  | .getQtr id m => bodyGetter .qtr id m (postQtr p.qtrOrder) s
  | .setServo id m v => bodySetter .servo id m (.scalar v) s
  | .getPotentiometer id m => bodyGetter .potentiometer id m (fun v => v) s
  | .setRgb id m r g b => bodySetter .rgb id m (.scalar (packRgb r g b)) s
  | .getImu id m => bodyGetter .imu id m (fun v => v) s
  | _ => (s, .none)

/-- Every host operation is its checks and its body run by `runOp`. -/
theorem exec_eq_runOp {i : Instr} {req : HostReq} (h : hostRequest i = some req) (s : State) :
    exec i s = .next (runOp i (hostCheck i) (hostBody s.cfg i) s) := by
  cases i <;> first | (cases h; done) | rfl

/-! ## What passing checks mean -/

theorem checkValue_eq_none_iff (p : Params) (d : Descriptor) (v : Value) :
    checkValue p d v = none ↔ fits d.fmt v = true ∧ (p.enforceMutable = true → d.isMutable = true) := by
  simp only [checkValue, firstError_eq_none_iff, List.mem_cons, forall_eq_or_imp, List.not_mem_nil, false_imp_iff,
    implies_true, and_true, failWhen_eq_none_iff, fits, Bool.and_eq_true]
  cases shapeOk d.fmt v <;> cases fieldsInDomain d.fmt v.fields <;> cases p.enforceMutable <;> cases d.isMutable <;> simp

theorem checkPair_eq_none_iff (p : Params) (i : Int) (v : Value) :
    checkPair p i v = none
      ↔ ∃ d, p.regmap.findInt i = some d ∧ fits d.fmt v = true ∧ (p.enforceMutable = true → d.isMutable = true) := by
  unfold checkPair
  cases p.regmap.findInt i <;> simp [checkValue_eq_none_iff]

theorem checkModule_eq_none_iff (m : Int) : checkModule m = none ↔ 1 ≤ m ∧ m ≤ 5 := by
  simp only [checkModule, failWhen_eq_none_iff, Bool.or_eq_false_iff, decide_eq_false_iff_not]
  omega

theorem checkByte_eq_none_iff (v : Int) : checkByte v = none ↔ 0 ≤ v ∧ v ≤ 255 := by
  simp only [checkByte, failWhen_eq_none_iff, Bool.or_eq_false_iff, decide_eq_false_iff_not]
  omega

theorem checkBaud_eq_none_iff (b : Int) : checkBaud b = none ↔ 3053 ≤ b ∧ b ≤ 12500000 := by
  simp only [checkBaud, failWhen_eq_none_iff, Bool.or_eq_false_iff, decide_eq_false_iff_not]
  simp only [baudMin, baudMax]
  norm_num

theorem checkUnicast_eq_none_iff (s : State) (id : Int) :
    checkUnicast s id = none ↔ 0 ≤ id ∧ id ≤ 254 ∧ s.attached id.toNat = true ∧ s.portOpen = true := by
  simp only [checkUnicast, firstError_eq_none_iff, List.mem_cons, forall_eq_or_imp, List.not_mem_nil, false_imp_iff,
    implies_true, and_true, checkId_eq_none_iff, checkAttached, checkPort, failWhen_eq_none_iff, Bool.not_eq_false',
    Bool.false_eq_true, imp_false]
  constructor
  · rintro ⟨⟨h0, h1, h2⟩, h3, h4⟩
    exact ⟨h0, by omega, h3, h4⟩
  · rintro ⟨h0, h1, h3, h4⟩
    exact ⟨⟨h0, by omega, by omega⟩, h3, h4⟩

theorem checkSetVariables_eq_none_iff (s : State) (id : Int) (ps : List (Int × Value)) :
    checkSetVariables s id ps = none
      ↔ 0 ≤ id ∧ id ≤ 255 ∧ s.attached id.toNat = true ∧ ps ≠ [] ∧ (∀ q ∈ ps, checkPair s.cfg q.1 q.2 = none)
        ∧ writeLen s.cfg.regmap ps ≤ 255 ∧ s.portOpen = true := by
  simp only [checkSetVariables, firstError_eq_none_iff, List.mem_cons, forall_eq_or_imp, List.not_mem_nil, false_imp_iff,
    implies_true, and_true, checkId_eq_none_iff, checkAttached, failWhen_eq_none_iff, checkPort, List.mem_map,
    forall_exists_index, and_imp, forall_apply_eq_imp_iff₂, decide_eq_false_iff_not, List.isEmpty_eq_false_iff,
    Bool.not_eq_false']
  have hm : maxFrame = 255 := rfl
  constructor
  · rintro ⟨⟨h0, h1⟩, h2, h3, h4, h5, h6⟩
    exact ⟨h0, h1, h2, h3, h4, by omega, h6⟩
  · rintro ⟨h0, h1, h2, h3, h4, h5, h6⟩
    exact ⟨⟨h0, h1⟩, h2, h3, h4, by omega, h6⟩

/-- A setter's checks pass for an id 0..254 only, although those of `set_variables` take 255 (log 23). -/
theorem checkSetter_eq_none_iff (s : State) (k : ModuleKind) (id m : Int) (range : Option ErrorCode) (v : Value) :
    checkSetter s k id m range v = none
      ↔ 1 ≤ m ∧ m ≤ 5 ∧ range = none ∧ id ≠ 255 ∧ checkSetVariables s id [(moduleIndex s.cfg k m, v)] = none := by
  simp only [checkSetter, firstError_eq_none_iff, List.mem_cons, forall_eq_or_imp, List.not_mem_nil, false_imp_iff,
    implies_true, and_true, checkModule_eq_none_iff, checkId_eq_none_iff, checkSetVariables_eq_none_iff,
    Bool.false_eq_true, imp_false]
  tauto

theorem checkGetVariables_eq_none_iff (s : State) (id : Int) (is : List Int) :
    checkGetVariables s id is = none
      ↔ 0 ≤ id ∧ id ≤ 254 ∧ s.attached id.toNat = true ∧ is ≠ [] ∧ (∀ i ∈ is, (s.cfg.regmap.findInt i).isSome = true)
        ∧ readLen is ≤ 255 ∧ readAckLen s.cfg.regmap is ≤ 255 ∧ s.portOpen = true := by
  simp only [checkGetVariables, firstError_eq_none_iff, List.mem_cons, forall_eq_or_imp, List.not_mem_nil, false_imp_iff,
    implies_true, and_true, checkId_eq_none_iff, checkAttached, failWhen_eq_none_iff, checkPort, List.mem_map,
    forall_exists_index, and_imp, forall_apply_eq_imp_iff₂, decide_eq_false_iff_not, List.isEmpty_eq_false_iff,
    Bool.not_eq_false', Bool.or_eq_false_iff, Option.isNone_eq_false_iff, Bool.false_eq_true, imp_false]
  have hm : maxFrame = 255 := rfl
  constructor
  · rintro ⟨⟨h0, h1, hn⟩, h2, h3, h4, ⟨h5, h7⟩, h6⟩
    exact ⟨h0, by omega, h2, h3, h4, by omega, by omega, h6⟩
  · rintro ⟨h0, h1, h2, h3, h4, h5, h7, h6⟩
    exact ⟨⟨h0, by omega, by omega⟩, h2, h3, h4, ⟨by omega, by omega⟩, h6⟩

theorem checkSetVariablesSync_eq_none_iff (s : State) (ix : Int) (gs : List (Int × Value)) :
    checkSetVariablesSync s ix gs = none
      ↔ gs ≠ [] ∧ (∀ q ∈ gs, 0 ≤ q.1 ∧ q.1 ≤ 254 ∧ checkPair s.cfg ix q.2 = none)
        ∧ syncLen s.cfg.regmap ix gs ≤ 255 ∧ s.portOpen = true := by
  have hm : maxFrame = 255 := rfl
  unfold checkSetVariablesSync checkPair
  cases hd : s.cfg.regmap.findInt ix with
  | none =>
    simp only [reduceCtorEq, and_false, false_iff, not_and]
    intro hne h
    obtain ⟨q, hq⟩ := List.exists_mem_of_ne_nil gs hne
    exact absurd (h q hq) id
  | some d =>
    simp only [firstError_eq_none_iff, List.mem_cons, forall_eq_or_imp, List.not_mem_nil, false_imp_iff, implies_true,
      and_true, checkId_eq_none_iff, failWhen_eq_none_iff, checkPort, List.mem_map, forall_exists_index, and_imp,
      forall_apply_eq_imp_iff₂, decide_eq_false_iff_not, List.isEmpty_eq_false_iff, Bool.not_eq_false',
      Bool.false_eq_true, imp_false]
    constructor
    · rintro ⟨h1, h2, h3, h4⟩
      exact ⟨h1, fun q hq => ⟨(h2 q hq).1.1, by have := (h2 q hq).1; omega, (h2 q hq).2⟩, by omega, h4⟩
    · rintro ⟨h1, h2, h3, h4⟩
      exact ⟨h1, fun q hq => ⟨⟨(h2 q hq).1, by have := h2 q hq; omega, by have := h2 q hq; omega⟩, (h2 q hq).2.2⟩,
        by omega, h4⟩

end Sys2Proof.Machine
end

