-- ==== Sys2Proof/Laws/Observer.lean ====
section
/-! SUPPORT. No operation reads what the observer holds (`crcOut` and `phasePath`, logs 6 and 7): with other contents there, a
step gives the same outcome, and the same state but for these two fields. So the block after a step depends on the block of
10_state.md R30, its configuration, the request and the bus alone. -/

namespace Sys2Proof.Machine

/-- A state with other contents of the observer's fields. -/
def State.seen (s : State) (c : Option Word32) (ph : List Phase) : State := { s with crcOut := c, phasePath := ph }

@[simp] theorem State.seen_toBlock (s : State) (c : Option Word32) (ph : List Phase) : (s.seen c ph).toBlock = s.toBlock := rfl
@[simp] theorem State.seen_cfg (s : State) (c : Option Word32) (ph : List Phase) : (s.seen c ph).cfg = s.cfg := rfl

/-! ## Straight-line operations -/

section
variable (s : State) (c : Option Word32) (ph : List Phase)

@[simp] theorem State.seen_setPhase (x : Phase) : (s.seen c ph).setPhase x = (s.setPhase x).seen c (ph ++ [x]) := rfl
@[simp] theorem State.seen_emit (e : Event) : (s.seen c ph).emit e = (s.emit e).seen c ph := rfl
@[simp] theorem State.seen_accept (r : Option HostReq) : (s.seen c ph).accept r = (s.accept r).seen c [.validate] := rfl
@[simp] theorem State.seen_encode (t : Byte) (k : Command) (P : List Byte) (a : Nat) :
    (s.seen c ph).encode t k P a = (s.encode t k P a).seen c ph := rfl
@[simp] theorem State.seen_txbuf : (s.seen c ph).txbuf = s.txbuf := rfl
@[simp] theorem State.seen_rxbuf : (s.seen c ph).rxbuf = s.rxbuf := rfl
@[simp] theorem State.seen_baudRate : (s.seen c ph).baudRate = s.baudRate := rfl
@[simp] theorem State.seen_ackSize : (s.seen c ph).ackSize = s.ackSize := rfl
@[simp] theorem State.seen_pending : (s.seen c ph).pending = s.pending := rfl
@[simp] theorem State.seen_internal : (s.seen c ph).internal = s.internal := rfl
@[simp] theorem State.seen_phase : (s.seen c ph).phase = s.phase := rfl
@[simp] theorem State.seen_readBack (id : Nat) (indices : List Int) :
    (s.seen c ph).readBack id indices = s.readBack id indices := rfl
@[simp] theorem State.seen_receive (n : Nat) : (s.seen c ph).receive n = (s.receive n).seen c ph := rfl
@[simp] theorem State.seen_writeMirror (slot : Nat) (ws : List (Nat × Value)) :
    (s.seen c ph).writeMirror slot ws = (s.writeMirror slot ws).seen c ph := rfl
@[simp] theorem State.seen_install (slot id : Nat) (fam : Byte) :
    (s.seen c ph).install slot id fam = (s.install slot id fam).seen c ph := rfl
@[simp] theorem State.seen_checkCrc : (s.seen c ph).checkCrc = s.checkCrc.seen c ph := rfl
@[simp] theorem State.seen_closePort : (s.seen c ph).closePort = s.closePort.seen c ph := rfl
@[simp] theorem State.seen_reopenAt (b : Nat) : (s.seen c ph).reopenAt b = (s.reopenAt b).seen c ph := rfl
@[simp] theorem State.seen_selectTimeout (x : TimeoutSel) :
    (s.seen c ph).selectTimeout x = (s.selectTimeout x).seen c ph := rfl
@[simp] theorem State.seen_recordScanned (ids : List Nat) :
    (s.seen c ph).recordScanned ids = (s.recordScanned ids).seen c ph := rfl

@[simp] theorem State.seen_installSentinel (slot : Nat) :
    (s.seen c ph).installSentinel slot = (s.installSentinel slot).seen c ph := by simp [State.installSentinel]

@[simp] theorem State.seen_encHdr (t : Byte) (k : Command) (b : Bool) :
    (s.seen c ph).encHdr t k b = (s.encHdr t k b).seen c ph := by simp [State.encHdr]

@[simp] theorem State.seen_encWrite (t : Byte) (ps : List (Int × Value)) (a : Bool) :
    (s.seen c ph).encWrite t ps a = (s.encWrite t ps a).seen c ph := by simp [State.encWrite]

@[simp] theorem State.seen_encRead (t : Byte) (is : List Int) :
    (s.seen c ph).encRead t is = (s.encRead t is).seen c ph := by simp [State.encRead]

@[simp] theorem State.seen_encSync (i : Int) (gs : List (Int × Value)) :
    (s.seen c ph).encSync i gs = (s.encSync i gs).seen c ph := by simp [State.encSync]

@[simp] theorem State.seen_send : (s.seen c ph).send = s.send.seen c (ph ++ [.tx, .settle]) := by simp [State.send]

@[simp] theorem State.seen_requestHdr (t : Nat) (k : Command) (b : Bool) :
    (s.seen c ph).requestHdr t k b = (s.requestHdr t k b).seen c (ph ++ [.encode, .tx, .settle]) := by
  simp [State.requestHdr]

@[simp] theorem State.seen_requestWrite (t : Nat) (ps : List (Int × Value)) (a : Bool) :
    (s.seen c ph).requestWrite t ps a = (s.requestWrite t ps a).seen c (ph ++ [.encode, .tx, .settle]) := by
  simp [State.requestWrite]

@[simp] theorem State.seen_requestRead (t : Nat) (is : List Int) :
    (s.seen c ph).requestRead t is = (s.requestRead t is).seen c (ph ++ [.encode, .tx, .settle]) := by
  simp [State.requestRead]

@[simp] theorem State.seen_requestSync (i : Int) (gs : List (Int × Value)) :
    (s.seen c ph).requestSync i gs = (s.requestSync i gs).seen c (ph ++ [.encode, .tx, .settle]) := by
  simp [State.requestSync]

@[simp] theorem State.seen_readReply (n : Nat) :
    (s.seen c ph).readReply n = (s.readReply n).seen c (ph ++ [.rx, .check]) := by simp [State.readReply]

@[simp] theorem State.seen_preWrite (id : Nat) (ps : List (Int × Value)) :
    (s.seen c ph).preWrite id ps = (s.preWrite id ps).seen c ph := by
  unfold State.preWrite
  split <;> simp

@[simp] theorem State.seen_commit (slot : Nat) (ws : List (Nat × Value)) :
    (s.seen c ph).commit slot ws = (s.commit slot ws).seen c ph := by
  unfold State.commit
  split <;> simp

end

/-! ## Blind functions -/

/-- A function on states that passes the observer's CRC port value on and reads neither of its fields. -/
def Blind {α : Type} (f : State → State × α) : Prop :=
  ∀ s c ph, ∃ ph', f (s.seen c ph) = ((f s).1.seen c ph', (f s).2)

/-- A straight-line operation before a blind function. -/
theorem Blind.comp {α : Type} {f : State → State × α} (hf : Blind f) {g : State → State} (es : List Phase)
    (hg : ∀ s c ph, g (s.seen c ph) = (g s).seen c (ph ++ es)) : Blind (fun s => f (g s)) := by
  intro s c ph
  obtain ⟨ph', h⟩ := hf (g s) c (ph ++ es)
  exact ⟨ph', by simp only [hg, h]⟩

/-- A result changed by a function of itself. -/
theorem Blind.map {α β : Type} {f : State → State × α} (hf : Blind f) (g : α → β) :
    Blind (fun s => ((f s).1, g (f s).2)) := by
  intro s c ph
  obtain ⟨ph', h⟩ := hf s c ph
  exact ⟨ph', by simp only [h]⟩

/-- A blind function chosen by the configuration, which the observer does not hold. -/
theorem Blind.ofCfg {α : Type} {f : Params → State → State × α} (hf : ∀ p, Blind (f p)) : Blind (fun s => f s.cfg s) :=
  fun s => hf s.cfg s

theorem takeReply_blind (r : Reply) : Blind (fun s => s.takeReply r) := by
  intro s c ph
  cases r with
  | short => exact ⟨ph, rfl⟩
  | badCrc => exact ⟨ph, rfl⟩
  | plain => exact ⟨ph, rfl⟩
  | framing => exact ⟨ph ++ [.decode], rfl⟩
  | decoded slot ws => exact ⟨ph ++ [.decode], by simp [State.takeReply]⟩

theorem ackProtocol_blind : Blind State.ackProtocol := by
  intro s c ph
  obtain ⟨ph', h⟩ := takeReply_blind (classifyReply s.cfg.regmap s.ackSize (s.readReply s.ackSize).rxbuf)
    (s.readReply s.ackSize) c (ph ++ [.rx, .check])
  exact ⟨ph', by simp only [State.ackProtocol, State.seen_ackSize, State.seen_readReply, State.seen_cfg,
    State.seen_rxbuf, h]⟩

/-- The result of a read or an acknowledged write is blind. -/
theorem valuesResult_blind (id : Nat) (indices : List Int) : Blind (fun s => valuesResult s.ackProtocol id indices) := by
  intro s c ph
  obtain ⟨ph', h⟩ := ackProtocol_blind s c ph
  refine ⟨ph', ?_⟩
  simp only [valuesResult, h]
  cases s.ackProtocol.2 <;> simp

/-! ## The bodies of the host operations -/

theorem bodySetVariables_blind (id : Nat) (pairs : List (Int × Value)) (ack : Bool) :
    Blind (bodySetVariables id pairs ack) := by
  intro s c ph
  obtain ⟨ph', h⟩ := valuesResult_blind id (pairs.map (·.1)) ((s.preWrite id pairs).requestWrite id pairs ack) c
    (ph ++ [.encode, .tx, .settle])
  simp only [bodySetVariables, State.seen_preWrite, State.seen_requestWrite]
  split
  · exact ⟨ph', h⟩
  · exact ⟨_, rfl⟩

theorem bodyGetVariables_blind (id : Nat) (indices : List Int) : Blind (bodyGetVariables id indices) :=
  (valuesResult_blind id indices).comp _ (fun s c ph => s.seen_requestRead c ph id indices)

theorem bodyGetter_blind (k : ModuleKind) (id m : Int) (post : Value → Value) : Blind (bodyGetter k id m post) :=
  .ofCfg (f := fun p s => ((bodyGetVariables id.toNat [moduleIndex p k m] s).1,
      mapSingle post (bodyGetVariables id.toNat [moduleIndex p k m] s).2))
    fun _ => (bodyGetVariables_blind _ _).map _

theorem bodySetter_blind (k : ModuleKind) (id m : Int) (v : Value) : Blind (bodySetter k id m v) :=
  .ofCfg (f := fun p s => bodySetVariables id.toNat [(moduleIndex p k m, v)] false s) fun _ => bodySetVariables_blind _ _ _

theorem bodyCommand_blind (id : Nat) (k : Command) : Blind (bodyCommand id k) :=
  fun s c ph => ⟨_, by simp only [bodyCommand, State.seen_requestHdr]; rfl⟩

theorem bodyAcked_blind (id : Nat) (k : Command) : Blind (bodyAcked id k) := by
  intro s c ph
  obtain ⟨ph', h⟩ := ackProtocol_blind (s.requestHdr id k false) c (ph ++ [.encode, .tx, .settle])
  exact ⟨ph', by simp only [bodyAcked, State.seen_requestHdr, h]⟩

theorem scanProbe_blind (id : Nat) : Blind (scanProbe id) := by
  intro s c ph
  obtain ⟨ph', h⟩ := ackProtocol_blind ((s.install id id s.cfg.scanFamily).requestHdr id .ping false) c
    (ph ++ [.encode, .tx, .settle])
  refine ⟨ph', ?_⟩
  simp only [scanProbe, State.seen_cfg, State.seen_install, State.seen_requestHdr, h, State.seen_installSentinel]
  split <;> rfl

theorem scanLoop_blind (ids : List Nat) : Blind (scanLoop ids) := by
  induction ids with
  | nil => exact fun _ _ ph => ⟨ph, rfl⟩
  | cons id ids ih =>
    intro s c ph
    obtain ⟨ph', h⟩ := scanProbe_blind id s c ph
    obtain ⟨ph'', h'⟩ := ih (scanProbe id s).1 c ph'
    exact ⟨ph'', by simp only [scanLoop, h, h']⟩

theorem bodyScan_blind : Blind bodyScan := by
  intro s c ph
  obtain ⟨ph', h⟩ := scanLoop_blind scanIds (s.selectTimeout .scan) c ph
  exact ⟨ph', by simp only [bodyScan, State.seen_selectTimeout, h, State.seen_recordScanned]⟩

theorem moduleScanResult_blind : Blind moduleScanResult := by
  intro s c ph
  refine ⟨ph, ?_⟩
  unfold moduleScanResult
  by_cases h1 : s.rxbuf.length < modscanResp
  · rw [if_pos (show (s.seen c ph).rxbuf.length < modscanResp from h1), if_pos h1]
  · rw [if_neg (show ¬(s.seen c ph).rxbuf.length < modscanResp from h1), if_neg h1]
    by_cases h2 : crcOk s.rxbuf = true
    · rw [if_pos (show crcOk (s.seen c ph).rxbuf = true from h2), if_pos h2]
      rfl
    · rw [if_neg (show ¬crcOk (s.seen c ph).rxbuf = true from h2), if_neg h2]
      rfl

theorem State.seen_moduleScanReply (id : Nat) (s : State) (c : Option Word32) (ph : List Phase) :
    moduleScanReply id (s.seen c ph) = (moduleScanReply id s).seen c
      (ph ++ [.encode, .tx, .settle, .encode, .tx, .settle, .rx, .check]) := by simp [moduleScanReply]

/-- No host operation's body reads the observer's fields. -/
theorem hostBody_blind (p : Params) (i : Instr) : Blind (hostBody p i) := by
  cases i
  case setVariables => exact bodySetVariables_blind _ _ _
  case getVariables => exact bodyGetVariables_blind _ _
  case setVariablesSync => exact fun s c ph => ⟨_, by simp only [hostBody, State.seen_requestSync]; rfl⟩
  case ping => exact bodyAcked_blind _ _
  case reboot => exact bodyCommand_blind _ _
  case hardReset => exact bodyCommand_blind _ _
  case eepromWrite id ack =>
    cases ack
    · exact bodyCommand_blind _ _
    · exact bodyAcked_blind _ _
  case tune => exact bodyCommand_blind _ _
  case resetEncoder => exact bodyCommand_blind _ _
  case enterBootloader =>
    exact fun s c ph => ⟨_, by simp only [hostBody, State.seen_requestHdr, State.seen_closePort]; rfl⟩
  case scan => exact bodyScan_blind
  case scanModules id => exact moduleScanResult_blind.comp _ (State.seen_moduleScanReply id.toNat)
  case getDriverInfo id =>
    exact .ofCfg (f := fun q s => ((bodyGetVariables id.toNat (versionIndices q) s).1,
      toVersions (bodyGetVariables id.toNat (versionIndices q) s).2)) fun _ => (bodyGetVariables_blind _ _).map _
  case updateDriverBaudrate =>
    exact fun s c ph => ⟨_, by
      simp only [hostBody, bodyDriverBaud, State.seen_cfg, State.seen_writeMirror, State.seen_requestWrite,
        State.seen_requestHdr]
      rfl⟩
  case getButton => exact bodyGetter_blind _ _ _ _
  case getLight => exact bodyGetter_blind _ _ _ _
  case getJoystick => exact bodyGetter_blind _ _ _ _
  case getDistance => exact bodyGetter_blind _ _ _ _
  case getQtr => exact bodyGetter_blind _ _ _ _
  case getPotentiometer => exact bodyGetter_blind _ _ _ _
  case getImu => exact bodyGetter_blind _ _ _ _
  case setBuzzer => exact bodySetter_blind _ _ _ _
  case setServo => exact bodySetter_blind _ _ _ _
  case setRgb => exact bodySetter_blind _ _ _ _
  all_goals exact fun s c ph => ⟨ph, rfl⟩

/-! ## Instructions and steps -/

/-- An outcome without what the observer has seen. -/
def forgetSeen : Outcome → Outcome
  | .next t => .next (t.seen none [])
  | .fault f => .fault f
  | .refused r => .refused r

theorem hostCheck_seen (i : Instr) (s : State) (c : Option Word32) (ph : List Phase) :
    hostCheck i (s.seen c ph) = hostCheck i s := by cases i <;> rfl

theorem exec_host_seen {i : Instr} {req : HostReq} (h : hostRequest i = some req) (s : State) (c : Option Word32)
    (ph : List Phase) : forgetSeen (exec i (s.seen c ph)) = forgetSeen (exec i s) := by
  rw [exec_eq_runOp h, exec_eq_runOp h]
  obtain ⟨ph', hb⟩ := hostBody_blind s.cfg i (s.accept (hostRequest i)) c [.validate]
  simp only [runOp, State.seen_accept, hostCheck_seen, State.seen_cfg, hb]
  cases hostCheck i (s.accept (hostRequest i)) <;> rfl

/-- No instruction reads what the observer holds. -/
theorem exec_seen (i : Instr) (s : State) (c : Option Word32) (ph : List Phase) :
    forgetSeen (exec i (s.seen c ph)) = forgetSeen (exec i s) := by
  cases h : hostRequest i with
  | some req => exact exec_host_seen h s c ph
  | none =>
    have hdr : ∀ t k b, forgetSeen (codecHdr t k b (s.seen c ph)) = forgetSeen (codecHdr t k b s) := by
      intro t k b
      simp only [codecHdr, State.seen_encHdr]
      split <;> rfl
    have wr : ∀ t ps a, forgetSeen (codecWrite t ps a (s.seen c ph)) = forgetSeen (codecWrite t ps a s) := by
      intro t ps a
      simp only [codecWrite, State.seen_cfg, State.seen_encWrite]
      split <;> rfl
    cases i <;> first | (cases h; done) | skip
    case frameWrite => exact wr _ _ _
    case frameWriteAck => exact wr _ _ _
    case frameRead =>
      simp only [exec, execFrameRead, State.seen_cfg, State.seen_encRead]
      split
      · split <;> rfl
      · rfl
    case frameSyncWrite =>
      simp only [exec, execFrameSyncWrite, State.seen_cfg, State.seen_encSync]
      split <;> rfl
    case crcInit => rfl
    case crcFeed => rfl
    case crcRead => rfl
    all_goals exact hdr _ _ _

theorem serveRequest_seen (r : Request) (s : State) (c : Option Word32) (ph : List Phase) :
    forgetSeen (serveRequest r (s.seen c ph)) = forgetSeen (serveRequest r s) := by
  simp only [serveRequest, State.seen_cfg]
  cases decode s.cfg.cmd r with
  | ok i => exact exec_seen i s c ph
  | error why => cases why <;> cases r <;> rfl

/-- No step reads what the observer holds. -/
theorem step_seen (s : State) (c : Option Word32) (ph : List Phase) :
    forgetSeen (step (s.seen c ph)) = forgetSeen (step s) := by
  unfold step
  by_cases hw : s.cfg.wf = true
  · rw [if_pos (show (s.seen c ph).cfg.wf = true from hw), if_pos hw]
    unfold serveNext
    rw [State.seen_internal, State.seen_pending]
    cases s.internal with
    | cons r rest => exact serveRequest_seen (.internal r) { s with internal := rest } c ph
    | nil =>
      cases s.pending with
      | nil => rfl
      | cons req rest =>
        by_cases hp : s.phase = .idle
        · simp only
          rw [if_pos (show (s.seen c ph).phase = .idle from hp), if_pos hp]
          exact serveRequest_seen (.host req) { s with pending := rest, internal := [] } c ph
        · simp only
          rw [if_neg (show ¬(s.seen c ph).phase = .idle from hp), if_neg hp]
  · rw [if_neg (show ¬(s.seen c ph).cfg.wf = true from hw), if_neg hw]

/-- The block after a step does not depend on what the observer held (10_state.md R30). -/
theorem block_step_seen {s t t' : State} {c : Option Word32} {ph : List Phase} (h : step s = .next t)
    (h' : step (s.seen c ph) = .next t') : t'.toBlock = t.toBlock := by
  have := step_seen s c ph
  rw [h, h'] at this
  simp only [forgetSeen, Host.Outcome.next.injEq] at this
  have hb : (t'.seen none []).toBlock = (t.seen none []).toBlock := by rw [this]
  exact hb

end Sys2Proof.Machine
end

