-- ==== Sys2Proof/Laws/PerInstr.lean ====
section
/-! SUPPORT. The per-instruction family `OnePort`: every instruction arrives at exactly one of the block's three ports, in the
form that port carries (30_encoding.md R161, R110; 41_codec.md R200; 40_crc.md R182). -/

namespace Sys2Proof.Laws.OnePort

/-- The request of an instruction is a record at the host port, or five frame bytes with operands at the codec, or a used
code at the CRC port, and of another port's form it has none. -/
def Statement (i : Instr) : Prop :=
  ∀ cm : CommandMap,
    (∃ r, hostRequest i = some r ∧ codecRequest i = none ∧ encode cm i = .host r)
    ∨ (hostRequest i = none ∧ ∃ t c ops, codecRequest i = some (t, c, ops)
        ∧ encode cm i = .internal (.codec [hdrByte, t, 0#8, 0#8, cm.byte c] ops))
    ∨ (hostRequest i = none ∧ codecRequest i = none ∧ ∃ code b, encode cm i = .internal (.crcPort code b) ∧ code ≠ 3#2)

theorem attach (id family : Int) : Statement (.attach id family) :=
  fun _ => .inl ⟨_, rfl, rfl, rfl⟩
theorem detach (id : Int) : Statement (.detach id) :=
  fun _ => .inl ⟨_, rfl, rfl, rfl⟩
theorem setVariables (id : Int) (pairs : List (Int × Value)) (ack : Bool) : Statement (.setVariables id pairs ack) :=
  fun _ => .inl ⟨_, rfl, rfl, rfl⟩
theorem getVariables (id : Int) (indices : List Int) : Statement (.getVariables id indices) :=
  fun _ => .inl ⟨_, rfl, rfl, rfl⟩
theorem setVariablesSync (index : Int) (groups : List (Int × Value)) : Statement (.setVariablesSync index groups) :=
  fun _ => .inl ⟨_, rfl, rfl, rfl⟩
theorem ping (id : Int) : Statement (.ping id) :=
  fun _ => .inl ⟨_, rfl, rfl, rfl⟩
theorem reboot (id : Int) : Statement (.reboot id) :=
  fun _ => .inl ⟨_, rfl, rfl, rfl⟩
theorem hardReset (id : Int) : Statement (.hardReset id) :=
  fun _ => .inl ⟨_, rfl, rfl, rfl⟩
theorem eepromWrite (id : Int) (ack : Bool) : Statement (.eepromWrite id ack) :=
  fun _ => .inl ⟨_, rfl, rfl, rfl⟩
theorem tune (id : Int) : Statement (.tune id) :=
  fun _ => .inl ⟨_, rfl, rfl, rfl⟩
theorem resetEncoder (id : Int) : Statement (.resetEncoder id) :=
  fun _ => .inl ⟨_, rfl, rfl, rfl⟩
theorem enterBootloader (id : Int) : Statement (.enterBootloader id) :=
  fun _ => .inl ⟨_, rfl, rfl, rfl⟩
theorem scan : Statement .scan :=
  fun _ => .inl ⟨_, rfl, rfl, rfl⟩
theorem scanModules (id : Int) : Statement (.scanModules id) :=
  fun _ => .inl ⟨_, rfl, rfl, rfl⟩
theorem getDriverInfo (id : Int) : Statement (.getDriverInfo id) :=
  fun _ => .inl ⟨_, rfl, rfl, rfl⟩
theorem updateMasterBaudrate (baud : Int) : Statement (.updateMasterBaudrate baud) :=
  fun _ => .inl ⟨_, rfl, rfl, rfl⟩
theorem updateDriverBaudrate (id baud : Int) : Statement (.updateDriverBaudrate id baud) :=
  fun _ => .inl ⟨_, rfl, rfl, rfl⟩
theorem getButton (id m : Int) : Statement (.getButton id m) :=
  fun _ => .inl ⟨_, rfl, rfl, rfl⟩
theorem getLight (id m : Int) : Statement (.getLight id m) :=
  fun _ => .inl ⟨_, rfl, rfl, rfl⟩
theorem setBuzzer (id m : Int) (v : Value) : Statement (.setBuzzer id m v) :=
  fun _ => .inl ⟨_, rfl, rfl, rfl⟩
theorem getJoystick (id m : Int) : Statement (.getJoystick id m) :=
  fun _ => .inl ⟨_, rfl, rfl, rfl⟩
theorem getDistance (id m : Int) : Statement (.getDistance id m) :=
  fun _ => .inl ⟨_, rfl, rfl, rfl⟩
theorem getQtr (id m : Int) : Statement (.getQtr id m) :=
  fun _ => .inl ⟨_, rfl, rfl, rfl⟩
theorem setServo (id m v : Int) : Statement (.setServo id m v) :=
  fun _ => .inl ⟨_, rfl, rfl, rfl⟩
theorem getPotentiometer (id m : Int) : Statement (.getPotentiometer id m) :=
  fun _ => .inl ⟨_, rfl, rfl, rfl⟩
theorem setRgb (id m r g b : Int) : Statement (.setRgb id m r g b) :=
  fun _ => .inl ⟨_, rfl, rfl, rfl⟩
theorem getImu (id m : Int) : Statement (.getImu id m) :=
  fun _ => .inl ⟨_, rfl, rfl, rfl⟩
theorem framePing (t : Byte) : Statement (.framePing t) :=
  fun _ => .inr (.inl ⟨rfl, _, _, _, rfl, rfl⟩)
theorem frameWrite (t : Byte) (pairs : List (Int × Value)) : Statement (.frameWrite t pairs) :=
  fun _ => .inr (.inl ⟨rfl, _, _, _, rfl, rfl⟩)
theorem frameRead (t : Byte) (indices : List Int) : Statement (.frameRead t indices) :=
  fun _ => .inr (.inl ⟨rfl, _, _, _, rfl, rfl⟩)
theorem frameEepromWrite (t : Byte) : Statement (.frameEepromWrite t) :=
  fun _ => .inr (.inl ⟨rfl, _, _, _, rfl, rfl⟩)
theorem frameReboot (t : Byte) : Statement (.frameReboot t) :=
  fun _ => .inr (.inl ⟨rfl, _, _, _, rfl, rfl⟩)
theorem frameHardReset (t : Byte) : Statement (.frameHardReset t) :=
  fun _ => .inr (.inl ⟨rfl, _, _, _, rfl, rfl⟩)
theorem frameTune (t : Byte) : Statement (.frameTune t) :=
  fun _ => .inr (.inl ⟨rfl, _, _, _, rfl, rfl⟩)
theorem frameResetEnc (t : Byte) : Statement (.frameResetEnc t) :=
  fun _ => .inr (.inl ⟨rfl, _, _, _, rfl, rfl⟩)
theorem frameModuleScan (t : Byte) (second : Bool) : Statement (.frameModuleScan t second) :=
  fun _ => .inr (.inl ⟨rfl, _, _, _, rfl, rfl⟩)
theorem frameBlJump (t : Byte) : Statement (.frameBlJump t) :=
  fun _ => .inr (.inl ⟨rfl, _, _, _, rfl, rfl⟩)
theorem frameSyncWrite (index : Int) (groups : List (Int × Value)) : Statement (.frameSyncWrite index groups) :=
  fun _ => .inr (.inl ⟨rfl, _, _, _, rfl, rfl⟩)
theorem frameWriteAck (t : Byte) (pairs : List (Int × Value)) : Statement (.frameWriteAck t pairs) :=
  fun _ => .inr (.inl ⟨rfl, _, _, _, rfl, rfl⟩)
theorem frameEepromWriteAck (t : Byte) : Statement (.frameEepromWriteAck t) :=
  fun _ => .inr (.inl ⟨rfl, _, _, _, rfl, rfl⟩)
theorem crcInit : Statement .crcInit :=
  fun _ => .inr (.inr ⟨rfl, rfl, _, _, rfl, nofun⟩)
theorem crcFeed (b : Byte) : Statement (.crcFeed b) :=
  fun _ => .inr (.inr ⟨rfl, rfl, _, _, rfl, nofun⟩)
theorem crcRead : Statement .crcRead :=
  fun _ => .inr (.inr ⟨rfl, rfl, _, _, rfl, nofun⟩)

end Sys2Proof.Laws.OnePort
end

