-- ==== Sys2Proof/Laws/Step.lean ====
section
/-! SUPPORT. What a step serves: a request at an internal port, else the next host operation, else nothing (log 3). -/

namespace Sys2Proof.Machine

/-- A request at an internal port is served first. -/
theorem serveNext_internal {s : State} {r : InternalReq} {rest : List InternalReq} (h : s.internal = r :: rest) :
    serveNext s = serveRequest (.internal r) { s with internal := rest } := by
  unfold serveNext
  split
  · rename_i h'; rw [h] at h'; cases h'; rfl
  · rename_i h'; rw [h] at h'; cases h'

/-- With none there, the next host operation is served in IDLE, and refused otherwise (10_state.md R57). -/
theorem serveNext_host {s : State} {req : HostReq} {rest : List HostReq} (h : s.internal = []) (hp : s.pending = req :: rest) :
    serveNext s
      = if s.phase = .idle then serveRequest (.host req) { s with pending := rest } else .refused .portBusy := by
  unfold serveNext
  split
  · rename_i h'; rw [h] at h'; cases h'
  · split
    · rename_i h'; rw [hp] at h'; cases h'
    · rename_i h'; rw [hp] at h'; cases h'; rfl

/-- With nothing waiting the engine stays as it is (10_state.md R65). -/
theorem serveNext_none {s : State} (h : s.internal = []) (hp : s.pending = []) : serveNext s = .next s := by
  simp [serveNext, h, hp]

end Sys2Proof.Machine
end

