-- ==== Sys2Proof/Tests/Slice0.lean ====
section
/-! SUPPORT. Tests: the well-formedness checks, the decoding of every constructor from a request written out from the spec's
encoding of it, vectors of 95_test_vectors.md (their ids are in the docstrings; frames and results are the spec's), and for
every statement with hypotheses a witness that meets them. -/

namespace Sys2Proof.Tests

open Sys2Proof.Machine

-- One theorem is checked after another: checked at once, their threads take more memory than a check is given.
set_option Elab.async false

/-- After reset with TP and attach(3, 0): the start state of the spec's vectors. -/
def s3 : State := State.reset.install 3 3 0#8

/-- The start state with answers waiting on the bus. -/
def bus (replies : List (List Byte)) : State := { s3 with busReplies := replies }

/-- The frames transmitted in a trace. -/
def framesOf : List Event → List (List Byte)
  | [] => []
  | .tx F :: rest => F :: framesOf rest
  | _ :: rest => framesOf rest

/-- The frames, the acknowledgment size and the result an instruction leaves, none where it stops. -/
def run (s : State) (i : Instr) : Option (List (List Byte) × Nat × Option Result) :=
  match exec i s with
  | .next t => some (framesOf t.trace, t.ackSize, t.result)
  | _ => none

/-- The value of an index of a slot after an instruction. -/
def readAfter (s : State) (i : Instr) (slot idx : Nat) : Option Value :=
  match exec i s with
  | .next t => t.read slot idx
  | _ => none

/-- The frame and the acknowledgment size a codec request leaves, none where it stops. -/
def framed (i : Instr) : Option (List Byte × Nat) :=
  match exec i s3 with
  | .next t => some (t.txbuf, t.ackSize)
  | _ => none

/-- The instruction a record at the host port decodes to, none where it is rejected. -/
def atHost (hop : Byte) (ops : List Operand) : Option Instr :=
  match decode tpCmd (.host ⟨hop, ops⟩) with
  | .ok i => some i
  | .error _ => none

/-- The instruction a request frame is read as, with its family and status bytes, none where it is rejected. -/
def fromFrame (F : List Byte) : Option (Instr × Byte × Byte) :=
  match parseFrame tp F with
  | .ok r => some r
  | .error _ => none

/-- The instruction a CRC port code decodes to, none where it is rejected. -/
def atCrcPort (code : BitVec 2) (b : Byte) : Option Instr :=
  match decode tpCmd (.internal (.crcPort code b)) with
  | .ok i => some i
  | .error _ => none

/-! ## Well-formedness: one ill-formed term for each check -/

/-- 30_encoding.md R152: 255 is no target of a header-only request, 254 is. -/
theorem test_wf_target : (Instr.framePing 0xFF#8).wf tp = false ∧ (Instr.framePing 0xFE#8).wf tp = true := by decide +kernel

theorem test_wf_write_empty : (Instr.frameWrite 3#8 []).wf tp = false := by decide +kernel

theorem test_wf_write_unknown_index : (Instr.frameWriteAck 3#8 [(200, .scalar 1)]).wf tp = false := by decide +kernel

/-- V-ENC-13, V-ENC-16. -/
theorem test_wf_write_value : (Instr.frameWrite 3#8 [(10, .scalar 256)]).wf tp = false
    ∧ (Instr.frameWrite 3#8 [(10, .tuple [1])]).wf tp = false := by decide +kernel

/-- V-ERR-10, V-ERR-10b: 49 pairs of five bytes fit, 50 do not. -/
theorem test_wf_write_length : (Instr.frameWrite 3#8 (List.replicate 49 (26, .scalar 0))).wf tp = true
    ∧ (Instr.frameWrite 3#8 (List.replicate 50 (26, .scalar 0))).wf tp = false := by decide +kernel

theorem test_wf_read_target : (Instr.frameRead 0xFF#8 [10]).wf tp = false := by decide +kernel

theorem test_wf_read_empty : (Instr.frameRead 3#8 []).wf tp = false := by decide +kernel

theorem test_wf_read_unknown_index : (Instr.frameRead 3#8 [10, 200]).wf tp = false := by decide +kernel

/-- V-ERR-10c, V-ERR-10d: the reply of 27 IMU reads fits, that of 28 does not. -/
theorem test_wf_read_length : (Instr.frameRead 3#8 (List.replicate 27 61)).wf tp = true
    ∧ (Instr.frameRead 3#8 (List.replicate 28 61)).wf tp = false := by decide +kernel

theorem test_wf_sync : (Instr.frameSyncWrite 10 []).wf tp = false ∧ (Instr.frameSyncWrite 67 [(3, .scalar 0)]).wf tp = false
    ∧ (Instr.frameSyncWrite 10 [(255, .scalar 1)]).wf tp = false ∧ (Instr.frameSyncWrite 10 [(-1, .scalar 1)]).wf tp = false
    ∧ (Instr.frameSyncWrite 10 [(3, .scalar 256)]).wf tp = false
    ∧ (Instr.frameSyncWrite 10 (List.replicate 123 (3, .scalar 1))).wf tp = false := by decide +kernel

/-! ## Decoding, request by request -/

/-- 30_encoding.md R161: the records of the device-table and transfer operations. -/
theorem test_decode_host_transfers :
    atHost 0x01#8 [.int 3, .int 0] = some (.attach 3 0) ∧ atHost 0x02#8 [.int 255] = some (.detach 255)
    ∧ atHost 0x03#8 [.int 3, .pairs [(10, .scalar 1)], .bool true] = some (.setVariables 3 [(10, .scalar 1)] true)
    ∧ atHost 0x04#8 [.int 3, .ints [13, 14]] = some (.getVariables 3 [13, 14])
    ∧ atHost 0x05#8 [.int 46, .pairs [(3, .scalar 10)]] = some (.setVariablesSync 46 [(3, .scalar 10)]) := by decide

/-- 30_encoding.md R161: the records of the header-only commands. -/
theorem test_decode_host_commands :
    atHost 0x06#8 [.int 3] = some (.ping 3) ∧ atHost 0x07#8 [.int 3] = some (.reboot 3)
    ∧ atHost 0x08#8 [.int 3] = some (.hardReset 3) ∧ atHost 0x09#8 [.int 3, .bool true] = some (.eepromWrite 3 true)
    ∧ atHost 0x0A#8 [.int 3] = some (.tune 3) ∧ atHost 0x0B#8 [.int 3] = some (.resetEncoder 3)
    ∧ atHost 0x0C#8 [.int 3] = some (.enterBootloader 3) := by decide

/-- 30_encoding.md R161: the records of discovery, driver information and baud rate. -/
theorem test_decode_host_bus :
    atHost 0x0D#8 [] = some .scan ∧ atHost 0x0E#8 [.int 3] = some (.scanModules 3)
    ∧ atHost 0x0F#8 [.int 3] = some (.getDriverInfo 3) ∧ atHost 0x10#8 [.int 115200] = some (.updateMasterBaudrate 115200)
    ∧ atHost 0x11#8 [.int 3, .int 1000000] = some (.updateDriverBaudrate 3 1000000) := by decide

/-- 30_encoding.md R161: the records of the peripheral accessors. -/
theorem test_decode_host_accessors :
    atHost 0x20#8 [.int 3, .int 1] = some (.getButton 3 1) ∧ atHost 0x21#8 [.int 3, .int 5] = some (.getLight 3 5)
    ∧ atHost 0x22#8 [.int 3, .int 1, .value (.scalar 440)] = some (.setBuzzer 3 1 (.scalar 440))
    ∧ atHost 0x23#8 [.int 3, .int 1] = some (.getJoystick 3 1) ∧ atHost 0x24#8 [.int 3, .int 1] = some (.getDistance 3 1)
    ∧ atHost 0x25#8 [.int 3, .int 1] = some (.getQtr 3 1) ∧ atHost 0x26#8 [.int 3, .int 2, .int 90] = some (.setServo 3 2 90)
    ∧ atHost 0x27#8 [.int 3, .int 2] = some (.getPotentiometer 3 2)
    ∧ atHost 0x28#8 [.int 3, .int 1, .int 255, .int 0, .int 128] = some (.setRgb 3 1 255 0 128)
    ∧ atHost 0x29#8 [.int 3, .int 1] = some (.getImu 3 1) := by decide

/-- 30_encoding.md R154 (V-ERR-13): hop codes outside the table; and operands of other types. -/
theorem test_decode_host_rejects :
    atHost 0x12#8 [] = none ∧ atHost 0x00#8 [] = none ∧ atHost 0xFF#8 [] = none ∧ atHost 0x1F#8 [.int 3] = none
    ∧ atHost 0x2A#8 [.int 3, .int 1] = none ∧ atHost 0x06#8 [.bool true] = none := by decide

/-- V-FRM-1, V-FRM-2a to 2h: the spec's header-only request frames, read byte by byte. -/
theorem test_decode_frames_hdr :
    fromFrame [0x55, 3, 0, 0x0A, 0, 0, 0xCE, 0xC8, 0x55, 0xFD] = some (.framePing 3, 0, 0)
    ∧ fromFrame [0x55, 3, 0, 0x0A, 4, 0, 0x67, 0xE9, 0x71, 0xB8] = some (.frameReboot 3, 0, 0)
    ∧ fromFrame [0x55, 3, 0, 0x0A, 5, 0, 0xBB, 0x28, 0x68, 0x6A] = some (.frameHardReset 3, 0, 0)
    ∧ fromFrame [0x55, 3, 0, 0x0A, 3, 0, 0x1D, 0x97, 0xBE, 0x8F] = some (.frameEepromWrite 3, 0, 0)
    ∧ fromFrame [0x55, 3, 0, 0x0A, 0x83, 0, 0x85, 0x4F, 0x32, 0x0D] = some (.frameEepromWriteAck 3, 0, 0)
    ∧ fromFrame [0x55, 3, 0, 0x0A, 6, 0, 0x68, 0x77, 0x83, 0x18] = some (.frameTune 3, 0, 0)
    ∧ fromFrame [0x55, 3, 0, 0x0A, 7, 0, 0xB4, 0xB6, 0x9A, 0xCA] = some (.frameResetEnc 3, 0, 0)
    ∧ fromFrame [0x55, 3, 0, 0x0A, 8, 0, 0x9C, 0x8B, 0x1D, 0x77] = some (.frameModuleScan 3 false, 0, 0)
    ∧ fromFrame [0x55, 3, 0, 0x0A, 9, 0, 0x40, 0x4A, 0x04, 0xA5] = some (.frameBlJump 3, 0, 0) := by decide +kernel

/-- V-FRM-3, 3b, 4, 5 and 12: the spec's request frames with a payload, and one with a status byte. -/
theorem test_decode_frames_payload :
    fromFrame [0x55, 3, 0, 0x0C, 0x81, 0, 0x0A, 1, 0x73, 0x51, 0xCF, 0xAF] = some (.frameWriteAck 3 [(10, .scalar 1)], 0, 0)
    ∧ fromFrame [0x55, 3, 0, 0x0C, 1, 0, 0x0A, 1, 0x6E, 0x6C, 0x29, 0x09] = some (.frameWrite 3 [(10, .scalar 1)], 0, 0)
    ∧ fromFrame [0x55, 3, 0, 0x0C, 2, 0, 0x0D, 0x0E, 0xC7, 0x1D, 0xDE, 0x66] = some (.frameRead 3 [13, 14], 0, 0)
    ∧ fromFrame [0x55, 0xFF, 0, 0x0F, 0x0A, 0, 0x2E, 3, 0x0A, 0x11, 0x14, 0x56, 0xF8, 0x5D, 0x6C]
        = some (.frameSyncWrite 46 [(3, .scalar 10), (17, .scalar 20)], 0, 0)
    ∧ fromFrame [0x55, 3, 0, 0x0A, 0, 5, 0xA5, 0xA3, 0x90, 0xEA] = some (.framePing 3, 0, 5) := by decide +kernel

/-- V-CRC-11: one flipped bit, and a frame cut short, are rejected. -/
theorem test_decode_frames_reject :
    fromFrame [0x55, 3, 0, 0x0A, 1, 0, 0xCE, 0xC8, 0x55, 0xFD] = none
    ∧ fromFrame [0x55, 3, 0, 0x0A, 0, 0, 0xCE, 0xC8, 0x55] = none := by decide +kernel

/-- 40_crc.md R182: the CRC port's codes. -/
theorem test_decode_crc_port :
    atCrcPort 0b00#2 0#8 = some .crcInit ∧ atCrcPort 0b01#2 0x55#8 = some (.crcFeed 0x55#8)
    ∧ atCrcPort 0b10#2 0#8 = some .crcRead ∧ atCrcPort 0b11#2 0#8 = none := by decide

/-- spec/opcode_table.json: the byte words of the 27 host operations. -/
theorem test_table_words_host :
    ([0x01, 0x02, 0x03, 0x04, 0x05, 0x06, 0x07, 0x08, 0x09, 0x0A, 0x0B, 0x0C, 0x0D, 0x0E, 0x0F, 0x10, 0x11, 0x20, 0x21, 0x22,
        0x23, 0x24, 0x25, 0x26, 0x27, 0x28, 0x29].map (decodeTableWord 8))
      = [some (.attach 0 0), some (.detach 0), some (.setVariables 0 [] false), some (.getVariables 0 []),
        some (.setVariablesSync 0 []), some (.ping 0), some (.reboot 0), some (.hardReset 0), some (.eepromWrite 0 false),
        some (.tune 0), some (.resetEncoder 0), some (.enterBootloader 0), some .scan, some (.scanModules 0),
        some (.getDriverInfo 0), some (.updateMasterBaudrate 0), some (.updateDriverBaudrate 0 0), some (.getButton 0 0),
        some (.getLight 0 0), some (.setBuzzer 0 0 (.scalar 0)), some (.getJoystick 0 0), some (.getDistance 0 0),
        some (.getQtr 0 0), some (.setServo 0 0 0), some (.getPotentiometer 0 0), some (.setRgb 0 0 0 0 0),
        some (.getImu 0 0)] := by decide

/-- spec/opcode_table.json: the frame windows of the thirteen Commands in TP's bytes, target 3 (SYNC_WRITE's is 255). -/
theorem test_table_words_frames :
    ([0x5503000000, 0x5503000001, 0x5503000002, 0x5503000003, 0x5503000004, 0x5503000005, 0x5503000006, 0x5503000007,
        0x5503000008, 0x5503000009, 0x55FF00000A, 0x5503000081, 0x5503000083].map (decodeTableWord 40))
      = [some (.framePing 3), some (.frameWrite 3 []), some (.frameRead 3 []), some (.frameEepromWrite 3),
        some (.frameReboot 3), some (.frameHardReset 3), some (.frameTune 3), some (.frameResetEnc 3),
        some (.frameModuleScan 3 false), some (.frameBlJump 3), some (.frameSyncWrite 0 []), some (.frameWriteAck 3 []),
        some (.frameEepromWriteAck 3)] := by decide

theorem test_table_words_crc : decodeTableWord 2 0 = some .crcInit ∧ decodeTableWord 2 1 = some (.crcFeed 0)
    ∧ decodeTableWord 2 2 = some .crcRead ∧ decodeTableWord 2 3 = none := by decide

/-! ## The CRC engine and the field codec -/

/-- V-CRC-1, 2, 3, 4. -/
theorem test_crc_short : crc32 [] = 0xFFFFFFFF#32 ∧ crc32 [0x00] = 0x4E08BFB4#32 ∧ crc32 [0x55] = 0x215A7FD8#32
    ∧ crc32 [0xFF] = 0xFFFFFF00#32 := by decide +kernel

/-- V-CRC-5 (X1). -/
theorem test_crc_check_value : crc32 [0x31, 0x32, 0x33, 0x34, 0x35, 0x36, 0x37, 0x38, 0x39] = 0x0376E6E7#32 := by
  decide +kernel

/-- V-CRC-3: the register after the XOR and after the first shift step. -/
theorem test_crc_shift : crcShift 0xAAFFFFFF#32 = 0x513EE249#32 ∧ crcShift 0x513EE249#32 = 0xA27DC492#32 := by decide

/-- V-ENC-3, 4, 5, 6, 9, 10. -/
theorem test_enc_fields : encField .i8 (-1) = [0xFF] ∧ encField .i8 (-128) = [0x80] ∧ encField .u16 300 = [0x2C, 0x01]
    ∧ encField .i16 (-2) = [0xFE, 0xFF] ∧ encField .f32 0x3F800000 = [0x00, 0x00, 0x80, 0x3F]
    ∧ encValue [.i16, .i16, .u8] (.tuple [-1, 1, 1]) = [0xFF, 0xFF, 0x01, 0x00, 0x01] := by decide +kernel

/-- V-ENC-3, 4, 6: signed fields decode to negative values. -/
theorem test_dec_fields : decField .i8 [0xFF] = -1 ∧ decField .i8 [0x80] = -128 ∧ decField .i16 [0xFE, 0xFF] = -2
    ∧ decField .u16 [0x2C, 0x01] = 300 := by decide +kernel

theorem test_crc_init : (match exec .crcInit s3 with | .next t => some t.crcReg | _ => none) = some 0xFFFFFFFF#32 := by
  decide +kernel

/-- V-CRC-3 through the port: the reset register fed one byte. -/
theorem test_crc_feed : (match exec (.crcFeed 0x55#8) s3 with | .next t => some t.crcReg | _ => none) = some 0x215A7FD8#32 := by
  decide +kernel

theorem test_crc_read : (match exec .crcRead s3 with | .next t => some t.crcOut | _ => none) = some (some 0xFFFFFFFF#32) := by
  decide +kernel

/-! ## The codec -/

/-- V-FRM-1, 2a to 2h: frames and acknowledgment sizes. -/
theorem test_frames_hdr :
    framed (.framePing 3) = some ([0x55, 3, 0, 0x0A, 0, 0, 0xCE, 0xC8, 0x55, 0xFD], 10)
    ∧ framed (.frameReboot 3) = some ([0x55, 3, 0, 0x0A, 4, 0, 0x67, 0xE9, 0x71, 0xB8], 0)
    ∧ framed (.frameHardReset 3) = some ([0x55, 3, 0, 0x0A, 5, 0, 0xBB, 0x28, 0x68, 0x6A], 0)
    ∧ framed (.frameEepromWrite 3) = some ([0x55, 3, 0, 0x0A, 3, 0, 0x1D, 0x97, 0xBE, 0x8F], 0)
    ∧ framed (.frameEepromWriteAck 3) = some ([0x55, 3, 0, 0x0A, 0x83, 0, 0x85, 0x4F, 0x32, 0x0D], 10)
    ∧ framed (.frameTune 3) = some ([0x55, 3, 0, 0x0A, 6, 0, 0x68, 0x77, 0x83, 0x18], 0)
    ∧ framed (.frameResetEnc 3) = some ([0x55, 3, 0, 0x0A, 7, 0, 0xB4, 0xB6, 0x9A, 0xCA], 0)
    ∧ framed (.frameModuleScan 3 true) = some ([0x55, 3, 0, 0x0A, 8, 0, 0x9C, 0x8B, 0x1D, 0x77], 18)
    ∧ framed (.frameBlJump 3) = some ([0x55, 3, 0, 0x0A, 9, 0, 0x40, 0x4A, 0x04, 0xA5], 0) := by decide +kernel

/-- V-FRM-3c, 3d, 3e: two pairs, a negative value, a composite value. -/
theorem test_frames_write :
    framed (.frameWriteAck 3 [(10, .scalar 1), (12, .scalar 0x3F800000)])
      = some ([0x55, 3, 0, 0x11, 0x81, 0, 0x0A, 1, 0x0C, 0, 0, 0x80, 0x3F, 0x3C, 0x33, 0x7F, 0xF3], 17)
    ∧ framed (.frameWrite 3 [(11, .scalar (-2))])
      = some ([0x55, 3, 0, 0x0F, 1, 0, 0x0B, 0xFE, 0xFF, 0xFF, 0xFF, 0x4C, 0xFE, 0xAD, 0xE2], 0)
    ∧ framed (.frameWrite 3 [(31, .tuple [-1, 1, 1])])
      = some ([0x55, 3, 0, 0x10, 1, 0, 0x1F, 0xFF, 0xFF, 1, 0, 1, 0x7D, 0x31, 0x35, 0x4F], 0) := by decide +kernel

/-- 30_encoding.md R152: no header-only or READ frame for 255. -/
theorem test_frames_broadcast : exec (.framePing 0xFF#8) s3 = .fault .broadcastTarget
    ∧ exec (.frameRead 0xFF#8 [10]) s3 = .fault .broadcastTarget := ⟨rfl, rfl⟩

/-- V-FRM-4, V-FRM-5b. -/
theorem test_frames_read_sync :
    framed (.frameRead 3 [13, 14]) = some ([0x55, 3, 0, 0x0C, 2, 0, 0x0D, 0x0E, 0xC7, 0x1D, 0xDE, 0x66], 18)
    ∧ framed (.frameSyncWrite 10 [(1, .scalar 1), (2, .scalar 1), (3, .scalar 0)])
      = some ([0x55, 0xFF, 0, 0x11, 0x0A, 0, 0x0A, 1, 1, 2, 1, 3, 0, 0xAA, 0x80, 0x88, 0x8A], 0) := by decide +kernel

/-! ## Host operations -/

/-- V-RST-1: after reset no unicast id is attached, 255 is, and ping(3) fails. -/
theorem test_reset : State.reset.attached 3 = false ∧ State.reset.attached 254 = false ∧ State.reset.attached 255 = true
    ∧ run State.reset (.ping 3) = some ([], 0, some (.error .notAttached)) := by decide +kernel

theorem test_attach : run s3 (.attach 4 0x21) = some ([], 0, some .done)
    ∧ readAfter s3 (.attach 4 0x21) 4 2 = some (.scalar 0x21) ∧ readAfter s3 (.attach 4 0x21) 4 8 = some (.scalar 115200) := by
  decide +kernel

/-- V-ERR-6d. -/
theorem test_attach_family : run s3 (.attach 5 256) = some ([], 0, some (.error .valueRange)) := by decide +kernel

theorem test_detach : run s3 (.detach 3) = some ([], 0, some .done) ∧ readAfter s3 (.detach 3) 3 1 = some (.scalar 255) := by
  decide +kernel

/-- V-FRM-3 with V-ACK-7: a reply with odd family, Command and Status bytes is accepted and decoded. -/
theorem test_set_variables_ack :
    run (bus [[0x55, 3, 0x12, 0x0C, 0x99, 0x7F, 0x0A, 1, 0xE0, 0x6E, 0x5A, 0x7A]]) (.setVariables 3 [(10, .scalar 1)] true)
      = some ([[0x55, 3, 0, 0x0C, 0x81, 0, 0x0A, 1, 0x73, 0x51, 0xCF, 0xAF]], 12, some (.values [.scalar 1])) := by decide +kernel

/-- 10_state.md R64: CRCValue (66 in TP) is hardwired: a write of 5 leaves it 0; a write of TorqueEnable does not. -/
theorem test_crcValue_hardwired : readAfter s3 (.setVariables 3 [(66, .scalar 5)] false) 3 66 = some (.scalar 0)
    ∧ readAfter s3 (.setVariables 3 [(10, .scalar 5)] false) 3 10 = some (.scalar 5) := by decide +kernel

/-- V-FRM-3g and V-FRM-3h: a broadcast reads no reply; the header's family byte is the pre-written one. -/
theorem test_set_variables_header :
    run s3 (.setVariables 255 [(10, .scalar 1)] true)
      = some ([[0x55, 0xFF, 0, 0x0C, 0x81, 0, 0x0A, 1, 0x09, 0x85, 0x64, 0x72]], 12, some .none)
    ∧ run (bus [[]]) (.setVariables 3 [(2, .scalar 0x21)] true)
      = some ([[0x55, 3, 0x21, 0x0C, 0x81, 0, 2, 0x21, 0x60, 0x20, 0xCE, 0xCE]], 12, some .none) := by decide +kernel

/-- V-FRM-4 with V-DEC-1; V-ACK-2, its first 17 bytes. -/
theorem test_get_variables :
    run (bus [[0x55, 3, 0, 0x12, 2, 0, 0x0D, 0, 0, 0x80, 0x3F, 0x0E, 0xFE, 0xFF, 0xD5, 0x03, 0x2C, 0xC3]])
        (.getVariables 3 [13, 14])
      = some ([[0x55, 3, 0, 0x0C, 2, 0, 0x0D, 0x0E, 0xC7, 0x1D, 0xDE, 0x66]], 18,
          some (.values [.scalar 0x3F800000, .scalar (-2)]))
    ∧ run (bus [[0x55, 3, 0, 0x12, 2, 0, 0x0D, 0, 0, 0x80, 0x3F, 0x0E, 0xFE, 0xFF, 0xD5, 0x03, 0x2C]])
        (.getVariables 3 [13, 14])
      = some ([[0x55, 3, 0, 0x0C, 2, 0, 0x0D, 0x0E, 0xC7, 0x1D, 0xDE, 0x66]], 18, some .none) := by decide +kernel

/-- V-DEC-2, V-DEC-4, V-DEC-5: an unknown index, a PackageSize of 10, a reply from slot 4. -/
theorem test_get_variables_decode :
    (run (bus [[0x55, 3, 0, 0x0C, 2, 0, 0xC8, 1, 0xDB, 0xF4, 0x66, 0x0A]]) (.getVariables 3 [10])).map (·.2.2)
      = some (some .framing)
    ∧ (run (bus [[0x55, 3, 0, 0x0A, 2, 0, 0x0A, 1, 0x99, 0x92, 0xB0, 0xDB]]) (.getVariables 3 [10])).map (·.2.2)
      = some (some (.values [.scalar 0]))
    ∧ readAfter (bus [[0x55, 4, 0, 0x0C, 2, 0, 0x0A, 1, 0xC0, 0xDB, 0x3B, 0x81]]) (.getVariables 3 [10]) 4 10
      = some (.scalar 1) := by decide +kernel

/-- V-FRM-5. -/
theorem test_set_variables_sync :
    run s3 (.setVariablesSync 46 [(3, .scalar 10), (17, .scalar 20)])
      = some ([[0x55, 0xFF, 0, 0x0F, 0x0A, 0, 0x2E, 3, 0x0A, 0x11, 0x14, 0x56, 0xF8, 0x5D, 0x6C]], 0, some .none) := by
  decide +kernel

/-- V-FRM-1 with V-ACK-5: a reply from another id is accepted. -/
theorem test_ping :
    run (bus [[0x55, 0x11, 0, 0x0A, 0, 0, 0xD8, 0x09, 0x9D, 0xEC]]) (.ping 3)
      = some ([[0x55, 3, 0, 0x0A, 0, 0, 0xCE, 0xC8, 0x55, 0xFD]], 10, some (.bool true)) := by decide +kernel

theorem test_reboot : run s3 (.reboot 3) = some ([[0x55, 3, 0, 0x0A, 4, 0, 0x67, 0xE9, 0x71, 0xB8]], 0, some .done) := by
  decide +kernel

theorem test_hard_reset : run s3 (.hardReset 3) = some ([[0x55, 3, 0, 0x0A, 5, 0, 0xBB, 0x28, 0x68, 0x6A]], 0, some .done) := by
  decide +kernel

/-- V-FRM-2c, V-FRM-2d with V-ACK-6. -/
theorem test_eeprom_write :
    run s3 (.eepromWrite 3 false) = some ([[0x55, 3, 0, 0x0A, 3, 0, 0x1D, 0x97, 0xBE, 0x8F]], 0, some .done)
    ∧ run (bus [[0x55, 3, 0, 0x0A, 0x83, 0, 0x85, 0x4F, 0x32, 0x0D]]) (.eepromWrite 3 true)
      = some ([[0x55, 3, 0, 0x0A, 0x83, 0, 0x85, 0x4F, 0x32, 0x0D]], 10, some (.bool true)) := by decide +kernel

theorem test_tune : run s3 (.tune 3) = some ([[0x55, 3, 0, 0x0A, 6, 0, 0x68, 0x77, 0x83, 0x18]], 0, some .done) := by
  decide +kernel

theorem test_reset_encoder :
    run s3 (.resetEncoder 3) = some ([[0x55, 3, 0, 0x0A, 7, 0, 0xB4, 0xB6, 0x9A, 0xCA]], 0, some .done) := by decide +kernel

theorem test_enter_bootloader :
    run s3 (.enterBootloader 3) = some ([[0x55, 3, 0, 0x0A, 9, 0, 0x40, 0x4A, 0x04, 0xA5]], 0, some .done)
    ∧ (match exec (.enterBootloader 3) s3 with | .next t => some t.portOpen | _ => none) = some false := by decide +kernel

/-- V-ERR-12, V-ERR-12b: with the port closed. -/
theorem test_closed_port : run { s3 with portOpen := false } (.ping 3) = some ([], 0, some (.error .portClosed))
    ∧ run { s3 with portOpen := false } (.attach 4 0) = some ([], 0, some .done) := by decide +kernel

/-- X5, on four of its ids: 3, 17 and 254 answer and 4 does not (a ping's reply may name any device, V-ACK-5). -/
theorem test_scan :
    (scanLoop [3, 4, 17, 254] { State.reset with busReplies := [[0x55, 0x11, 0, 0x0A, 0, 0, 0xD8, 0x09, 0x9D, 0xEC], [],
        [0x55, 0x11, 0, 0x0A, 0, 0, 0xD8, 0x09, 0x9D, 0xEC], [0x55, 0x11, 0, 0x0A, 0, 0, 0xD8, 0x09, 0x9D, 0xEC]] }).2
      = [3, 17, 254] := by decide +kernel

/-- V-FRM-2g, V-MOD-2. -/
theorem test_scan_modules :
    run (bus [[0x55, 3, 0, 0x12, 8, 0, 0x21, 0, 0, 0, 0, 0, 0, 0, 0xCC, 0xEB, 0xB1, 0xE2]]) (.scanModules 3)
      = some ([[0x55, 3, 0, 0x0A, 8, 0, 0x9C, 0x8B, 0x1D, 0x77], [0x55, 3, 0, 0x0A, 8, 0, 0x9C, 0x8B, 0x1D, 0x77]], 18,
          some (.indices [16, 21])) := by decide +kernel

/-- V-MOD-3, V-MOD-4, V-MOD-5, V-MOD-6. -/
theorem test_modmap : modmap tp.bank (2 ^ 49) = [65] ∧ modmap tp.bank (2 ^ 49 + 2 ^ 50) = [65]
    ∧ modmap tp.bank 0xFFFFFFFFFFFFFFFF = (List.range 50).map (· + 16)
    ∧ modmap tp.bank (2 ^ 4 + 2 ^ 5 + 2 ^ 30) = [20, 21, 46] := by decide +kernel

/-- V-FRM-4c, V-ACC-12. -/
theorem test_get_driver_info :
    run (bus [[0x55, 3, 0, 0x14, 2, 0, 6, 3, 2, 1, 0, 7, 6, 5, 4, 0xFF, 0xD2, 0x0F, 0xAD, 0xA8]]) (.getDriverInfo 3)
      = some ([[0x55, 3, 0, 0x0C, 2, 0, 6, 7, 0x49, 0xF1, 0xB4, 0xBC]], 20, some (.versions (3, 2, 1) (6, 5, 4))) := by
  decide +kernel

/-- V-ACC-12: what the host prints under TP. -/
theorem test_printed_version : printedVersion tp.versionOrder (3, 2, 1) = [1, 2, 3] := by decide

/-- V-BAUD-1, V-BAUD-2, V-BAUD-5. -/
theorem test_update_master_baudrate :
    (match exec (.updateMasterBaudrate 3053) s3 with | .next t => some (t.trace, t.baudRate, t.result) | _ => none)
      = some ([.resetIn, .resetOut, .closePort, .apply 3053, .openPort], 3053, some .done)
    ∧ (match exec (.updateMasterBaudrate 12500000) s3 with | .next t => some t.settleDelay | _ => none)
      = some (24 / 10000000) := by decide +kernel

/-- V-BAUD-3, V-BAUD-4. -/
theorem test_baud_range : run s3 (.updateMasterBaudrate 3052) = some ([], 0, some (.error .baudRange))
    ∧ run s3 (.updateMasterBaudrate 12500001) = some ([], 0, some (.error .baudRange)) := by decide +kernel

/-- V-FRM-10, 10b, 10c. -/
theorem test_update_driver_baudrate :
    run s3 (.updateDriverBaudrate 3 1000000)
      = some ([[0x55, 3, 0, 0x0F, 1, 0, 8, 0x40, 0x42, 0x0F, 0, 0xA4, 0xC4, 0xDD, 0x3B],
          [0x55, 3, 0, 0x0A, 3, 0, 0x1D, 0x97, 0xBE, 0x8F], [0x55, 3, 0, 0x0A, 4, 0, 0x67, 0xE9, 0x71, 0xB8]], 0,
          some .done) := by decide +kernel

/-- V-FRM-9, V-DEC-7. -/
theorem test_get_button :
    run (bus [[0x55, 3, 0, 0x0C, 2, 0, 0x10, 1, 0x4E, 0x98, 0xB5, 0x53]]) (.getButton 3 1)
      = some ([[0x55, 3, 0, 0x0B, 2, 0, 0x10, 0x13, 0xAD, 0x70, 0x7E]], 12, some (.values [.scalar 1])) := by decide +kernel

/-- V-FRM-9b, no answer. -/
theorem test_get_light : run (bus [[]]) (.getLight 3 5)
    = some ([[0x55, 3, 0, 0x0B, 2, 0, 0x19, 0x1C, 0x5D, 0xB9, 0x5C]], 12, some .none) := by decide +kernel

/-- V-FRM-9c, V-ACC-9. -/
theorem test_get_joystick :
    run (bus [[0x55, 3, 0, 0x10, 2, 0, 0x1F, 0xFF, 0xFF, 1, 0, 1, 0x23, 0x54, 0xD7, 0xA3]]) (.getJoystick 3 1)
      = some ([[0x55, 3, 0, 0x0B, 2, 0, 0x1F, 0xAE, 0x10, 0x3F, 0x46]], 16, some (.values [.tuple [-1, 1, 1]])) := by
  decide +kernel

/-- V-FRM-9d, V-ACC-10. -/
theorem test_get_distance :
    run (bus [[0x55, 3, 0, 0x0D, 2, 0, 0x24, 0x2C, 1, 0x9C, 0xAC, 0x8E, 0xC3]]) (.getDistance 3 1)
      = some ([[0x55, 3, 0, 0x0B, 2, 0, 0x24, 0x5F, 0xB6, 0x46, 0xB9]], 13, some (.values [.scalar 300])) := by decide +kernel

/-- V-FRM-9e, V-ACC-6. -/
theorem test_get_qtr :
    run (bus [[0x55, 3, 0, 0x0C, 2, 0, 0x29, 5, 0x29, 0xC1, 0x12, 0x28]]) (.getQtr 3 1)
      = some ([[0x55, 3, 0, 0x0B, 2, 0, 0x29, 0x8C, 0x30, 0x8B, 0x88]], 12, some (.values [.tuple [1, 0, 1]])) := by decide +kernel

/-- V-ACC-7, V-ACC-8. -/
theorem test_qtr_orders : postQtr .lsbFirst (.scalar 3) = .tuple [1, 1, 0] ∧ postQtr .msbFirst (.scalar 3) = .tuple [0, 1, 1]
    ∧ postQtr .lsbFirst (.scalar 0xF8) = .tuple [0, 0, 0] := by decide +kernel

/-- V-FRM-9f, no answer. -/
theorem test_get_potentiometer : run (bus [[]]) (.getPotentiometer 3 2)
    = some ([[0x55, 3, 0, 0x0B, 2, 0, 0x34, 0x2F, 0x6D, 0x57, 0xF5]], 12, some .none) := by decide +kernel

/-- V-FRM-9g, V-ACC-11. -/
theorem test_get_imu :
    run (bus [[0x55, 3, 0, 0x13, 2, 0, 0x3D, 0, 0, 0x80, 0x3F, 0, 0, 0, 0xC0, 0x5D, 0x51, 0x37, 0xCF]]) (.getImu 3 1)
      = some ([[0x55, 3, 0, 0x0B, 2, 0, 0x3D, 0x20, 0x9D, 0x9E, 0xD7]], 19,
          some (.values [.tuple [0x3F800000, 0xC0000000]])) := by decide +kernel

/-- V-FRM-6, V-ACC-5. -/
theorem test_set_buzzer : run s3 (.setBuzzer 3 1 (.scalar 440))
    = some ([[0x55, 3, 0, 0x0F, 1, 0, 0x1A, 0xB8, 1, 0, 0, 0xC3, 0xB2, 0x32, 0x70]], 0, some .none) := by decide +kernel

/-- V-FRM-7, V-ACC-3. -/
theorem test_set_servo : run s3 (.setServo 3 2 90)
    = some ([[0x55, 3, 0, 0x0C, 1, 0, 0x2F, 0x5A, 0x5B, 0xDA, 0x6B, 0xED]], 0, some .none)
    ∧ readAfter s3 (.setServo 3 2 90) 3 47 = some (.scalar 90) := by decide +kernel

/-- V-FRM-8, V-ACC-1 (X6). -/
theorem test_set_rgb : run s3 (.setRgb 3 1 255 0 128)
    = some ([[0x55, 3, 0, 0x0F, 1, 0, 0x38, 0xFF, 0, 0x80, 0, 0x57, 0x66, 0x88, 0xAF]], 0, some .none)
    ∧ readAfter s3 (.setRgb 3 1 255 0 128) 3 56 = some (.scalar 8388863) := by decide +kernel

/-- V-ERR-1, 2b, 3b, 4, 5c, 6b, 8, 9, 10d and 14: nothing is sent, and the result is the error. -/
theorem test_errors :
    ([.getVariables 256 [10], .ping 255, .setVariables 4 [] false, .getVariables 3 [], .getButton 4 9, .setRgb 3 1 0 256 0,
        .getVariables 3 [10, 200], .setVariables 3 [(31, .scalar 5)] false, .getVariables 3 (List.replicate 28 61),
        .getVariables 256 []].map (run s3))
      = [ErrorCode.idRange, .broadcast, .notAttached, .empty, .moduleId, .valueRange, .unknownIndex, .shape, .frameTooLong,
        .idRange].map (fun e => some ([], 0, some (.error e))) := by decide +kernel

/-- 60_exceptions.md R363, D9, D11: a setter of id 255 fails with E_BROADCAST, after its module identifier and its own range. -/
theorem test_setters_refuse_broadcast :
    ([.setBuzzer 255 1 (.scalar 440), .setServo 255 5 255, .setRgb 255 1 255 0 128, .setBuzzer 255 6 (.scalar 0),
        .setServo 255 1 256, .setRgb 256 1 0 0 0].map (run s3))
      = [ErrorCode.broadcast, .broadcast, .broadcast, .moduleId, .valueRange, .idRange].map
          (fun e => some ([], 0, some (.error e))) := by decide +kernel

/-- V-ERR-15, and V-ERR-11 under P_ENFORCE_MUTABLE. -/
theorem test_errors_in_order :
    run s3 (.setVariables 3 [(10, .scalar 1), (200, .scalar 1), (11, .scalar (2 ^ 40))] false)
      = some ([], 0, some (.error .unknownIndex))
    ∧ run { s3 with cfg := { tp with enforceMutable := true } } (.setVariables 3 [(13, .scalar 0)] false)
      = some ([], 0, some (.error .readOnly)) := by decide +kernel

/-- V-ERR-13 through a step: an unknown hop code at the host port. -/
theorem test_step_unknown_hop :
    (match step { s3 with pending := [⟨0x12#8, []⟩] } with | .next t => some (t.op, t.result, t.pending) | _ => none)
      = some (some ⟨0x12#8, []⟩, some (.error .unknownOp), []) := by decide +kernel

/-- 00_scope.md R6, 40_crc.md R181: after reset no request waits at an internal port, and a host operation leaves none there
and crcOut as it was. -/
theorem test_host_reaches_host_port_only :
    State.reset.internal = []
    ∧ (match step { s3 with pending := [⟨0x0A#8, [.int 3]⟩] } with | .next t => some (t.internal, t.crcOut) | _ => none)
      = some ([], none) := by decide +kernel

/-- A word placed by `withFetchWord` is what the next step runs. -/
theorem test_step_fetch_word :
    (match step (State.reset.withFetchWord 8 0x06) with | .next t => some (t.op, t.result) | _ => none)
      = some (some ⟨0x06#8, [.int 0]⟩, some (.error .notAttached))
    ∧ (match step (State.reset.withFetchWord 40 0x5503000000) with | .next t => some t.txbuf | _ => none)
      = some [0x55, 3, 0, 0x0A, 0, 0, 0xCE, 0xC8, 0x55, 0xFD] := by decide +kernel

/-! ## Witnesses: states and operands that meet the hypotheses of each statement that has some -/

theorem tp_wf : tp.wf = true := by decide +kernel

theorem s3_ready : s3.ready 3 := by
  unfold State.ready
  decide +kernel

/-- 254 is the last unicast id (30_encoding.md R152). -/
theorem s254_ready : (State.reset.install 254 254 7#8).ready 254 := by
  unfold State.ready
  decide +kernel

theorem writable_of_check {p : Params} {i : Int} {v : Value} (h : checkPair p i v = none) : writable p i v :=
  (checkPair_eq_none_iff p i v).mp h

theorem s3_tableInv : TableInv s3 := by
  unfold TableInv
  decide +kernel

theorem s3_engineInv : EngineInv s3 := by
  unfold EngineInv
  decide +kernel

theorem s3_traceInv : TraceInv s3 := by
  unfold TraceInv
  decide +kernel

/-- A state whose trace has two frames in it, after a ping and a reboot. -/
def sent2 : State :=
  { s3 with
    trace := [.tx [0x55, 3, 0, 0x0A, 0, 0, 0xCE, 0xC8, 0x55, 0xFD], .settle 115200, .rx 10 [],
      .tx [0x55, 3, 0, 0x0A, 4, 0, 0x67, 0xE9, 0x71, 0xB8], .settle 115200]
    pending := [⟨0x06#8, [.int 3]⟩]
    ackSize := 10
    lastScanned := [3, 17, 254] }

theorem witness_oneByteChangeChangesCrc : 5 < [0x55#8, 3, 0, 0x0A, 0, 0].length ∧ [0x55#8, 3, 0, 0x0A, 0, 0][5]? ≠ some 1 := by
  decide

theorem witness_fieldDecodesToWhatWasEncoded :
    [(Prim.u8, (255 : Int)), (.i8, -128), (.i8, 127), (.u16, 65535), (.i16, -32768), (.i16, 32767), (.u32, 4294967295),
      (.i32, -2147483648), (.i32, 2147483647), (.f32, 0x7FC00001), (.u8, 0)].all (fun e => e.1.inDomain e.2) = true := by decide

theorem witness_valueDecodesToWhatWasEncoded : fits [.u8] (.scalar 255) = true
    ∧ fits [.i16, .i16, .u8] (.tuple [-32768, 32767, 255]) = true := by decide

theorem witness_decodedValuesFitTheirFormat : [Prim.i16, .i16, .u8] ≠ []
    ∧ [0xFF#8, 0xFF, 1, 0, 1].length = fmtWidth [.i16, .i16, .u8] := by decide

/-- Index 66 is TP's CRCValue, 10 is another one. -/
theorem witness_mirrorWritesLastValueWins : (255 : Nat) < 256 ∧ tp.regmap.crcValue = 66 ∧ 10 ≠ tp.regmap.crcValue
    ∧ (∀ w ∈ [(10, Value.scalar 1), (66, .scalar 7), (10, .scalar 2)], w.1 < 256 ∧ (tp.regmap.find w.1).isSome = true)
    ∧ lastWrite 10 [(10, .scalar 1), (66, .scalar 7), (10, .scalar 2)] = some (.scalar 2)
    ∧ lastWrite 11 [(10, .scalar 1), (66, .scalar 7), (10, .scalar 2)] = none ∧ (3 : Nat) ≠ 255 := by decide +kernel

theorem witness_tablesThatReadAlikeAreEqual : cellsWf tp s3.dt = true ∧ s3.dt ≠ []
    ∧ ∀ slot idx, readCells tp s3.dt slot idx = readCells tp s3.dt slot idx :=
  ⟨by decide +kernel, by decide +kernel, fun _ _ => rfl⟩

theorem witness_headerBytesAreMirrorValues : TableInv s3 ∧ (255 : Nat) < 256 := ⟨s3_tableInv, by decide⟩

/-- A frame of 255 bytes, the longest (41_codec.md R215). -/
theorem witness_writeCommandsEncode :
    (∀ q ∈ List.replicate 49 ((26 : Int), Value.scalar 4294967295), s3.cfg.regmap.encodable q.1 q.2 = true)
    ∧ writeLen s3.cfg.regmap (List.replicate 49 (26, .scalar 4294967295)) = 255 := by decide +kernel

/-- The first and the last unicast target. -/
theorem witness_headerCommandsEncode : 0x00#8 ≠ 0xFF#8 ∧ 0xFE#8 ≠ 0xFF#8 := by decide

/-- A frame of 255 bytes, and a reply of 253. -/
theorem witness_readCommandEncodes :
    0xFE#8 ≠ 0xFF#8 ∧ (∀ i ∈ List.replicate 27 (61 : Int), (s3.cfg.regmap.findInt i).isSome = true) ∧ 6 + (List.replicate 27 (61 : Int)).length + 4 ≤ 255
    ∧ 6 + ((List.replicate 27 (61 : Int)).map (fun i => 1 + s3.cfg.regmap.widthInt i)).sum + 4 = 253 := by decide +kernel

/-- A frame of 255 bytes to the last unicast id. -/
theorem witness_syncCommandEncodes :
    (s3.cfg.regmap.findInt 10).isSome = true
    ∧ (∀ q ∈ List.replicate 122 ((254 : Int), Value.scalar 255),
        0 ≤ q.1 ∧ q.1 ≤ 254 ∧ s3.cfg.regmap.encodable 10 q.2 = true)
    ∧ 6 + 1 + (List.replicate 122 ((254 : Int), Value.scalar 255)).length * (1 + s3.cfg.regmap.widthInt 10) + 4 = 255 := by
  decide +kernel

theorem witness_codecRequestsLeaveSealedFrames :
    [Instr.framePing 0xFE#8, .frameWrite 0xFF#8 [(10, .scalar 1)], .frameWriteAck 3#8 [(31, .tuple [-1, 1, 1])],
      .frameRead 0#8 [13], .frameSyncWrite 46 [(254, .scalar 10)], .frameModuleScan 3#8 true].all
        (fun i => (codecRequest i).isSome && i.wf tp) = true := by decide +kernel

/-- Each way a request has no frame. -/
theorem witness_unencodableRequestsStop :
    tp.regmap.encodable 10 (.scalar 256) = false ∧ tp.regmap.encodable 67 (.scalar 0) = false
    ∧ writeLen tp.regmap (List.replicate 50 (26, .scalar 0)) = 260
    ∧ tp.regmap.findInt 67 = none ∧ readLen (List.replicate 246 (10 : Int)) = 256
    ∧ readAckLen tp.regmap (List.replicate 28 (61 : Int)) = 262 ∧ (-1 : Int) < 0 ∧ (255 : Int) < 256
    ∧ syncLen tp.regmap 10 (List.replicate 123 ((3 : Int), Value.scalar 1)) = 257 := by decide +kernel

theorem witness_requestFramesReadBack :
    (Instr.frameSyncWrite 46 [(254, .scalar 10)]).wf tp = true
    ∧ codecRequest (.frameSyncWrite 46 [(254, .scalar 10)]) = some (0xFF#8, .syncWrite, [.int 46, .pairs [(254, .scalar 10)]])
    ∧ codecPayload tp.regmap (.frameSyncWrite 46 [(254, .scalar 10)]) = some [46, 254, 10]
    ∧ (Instr.frameModuleScan 3#8 true).wf tp = true ∧ codecPayload tp.regmap (.frameModuleScan 3#8 true) = some [] := by
  decide +kernel

/-- The last index but CRCValue, and CRCValue. -/
theorem witness_replyRoundTrip :
    s3.cfg.regmap.find 65 = some ⟨65, "IMU_5", [.f32, .f32], false, .tuple [0, 0]⟩ ∧ 65 ≠ s3.cfg.regmap.crcValue
    ∧ fits [.f32, .f32] (.tuple [4294967295, 0]) = true ∧ 66 = s3.cfg.regmap.crcValue
    ∧ s3.cfg.regmap.find 66 = some ⟨66, "CRCValue", [.u32], false, .scalar 0⟩ ∧ fits [.u32] (.scalar 4294967295) = true
    ∧ (254 : Nat) < 255 ∧ 6 + (1 + Descriptor.width ⟨66, "CRCValue", [.u32], false, .scalar 0⟩) + 4 = 15 := by decide +kernel

theorem witness_decodeInvertsEncode : ∀ c c' : Command, tpCmd.byte c = tpCmd.byte c' → c = c' :=
  fun _ _ h => Params.cmd_injective tp_wf h

theorem witness_stepRunsTheDecodedInstruction :
    sent2.cfg.wf = true ∧ sent2.internal = [] ∧ sent2.phase = .idle ∧ sent2.pending = [⟨0x06#8, [.int 3]⟩]
    ∧ decode sent2.cfg.cmd (.host ⟨0x06#8, [.int 3]⟩) = .ok (.ping 3) ∧ (∃ t, step sent2 = .next t)
    ∧ ({ sent2 with internal := [.crcPort 1#2 7#8] } : State).cfg.wf = true
    ∧ decode sent2.cfg.cmd (.internal (.crcPort 1#2 7#8)) = .ok (.crcFeed 7) := by
  refine ⟨tp_wf, rfl, rfl, rfl, rfl, ?_, tp_wf, rfl⟩
  unfold step
  rw [if_pos (show sent2.cfg.wf = true from tp_wf)]
  exact ⟨_, rfl⟩

/-- Hop codes at the boundaries of each gap of the table. -/
theorem witness_unknownHopsFail :
    ∀ hop ∈ [0x00#8, 0x12#8, 0x1F#8, 0x2A#8, 0xFF#8],
      ({ s3 with pending := [⟨hop, []⟩] } : State).cfg.wf = true ∧ s3.internal = []
      ∧ (hop.toNat = 0 ∨ (0x12 ≤ hop.toNat ∧ hop.toNat ≤ 0x1F) ∨ 0x2A ≤ hop.toNat) :=
  fun hop h => ⟨tp_wf, rfl, by revert hop; decide⟩

theorem witness_stepOtherwiseWaitsOrRefuses :
    { tp with baudInit := 3052 }.wf = false ∧ s3.cfg.wf = true ∧ s3.internal = [] ∧ s3.pending = [] ∧ sent2.pending ≠ []
    ∧ { sent2 with phase := .rx }.phase ≠ .idle
    ∧ { s3 with internal := [.crcPort 3#2 0#8] }.internal = .crcPort 3#2 0#8 :: [] :=
  ⟨by decide +kernel, tp_wf, rfl, rfl, by decide, by decide, rfl⟩

/-- Two writable pairs, and a frame of 255 bytes. -/
theorem witness_unacknowledgedWriteSendsOneFrame :
    s3.attached 3 = true ∧ s3.attached 255 = true ∧ s3.portOpen = true
    ∧ (∀ q ∈ [((10 : Int), Value.scalar 1), (31, .tuple [-1, 1, 1])], writable s3.cfg q.1 q.2)
    ∧ writeLen s3.cfg.regmap [(10, .scalar 1), (31, .tuple [-1, 1, 1])] ≤ 255 := by
  refine ⟨by decide +kernel, by decide +kernel, rfl, fun q hq => ?_, by decide +kernel⟩
  exact writable_of_check (by revert q; decide +kernel)

theorem witness_acknowledgedWriteReadsTheEcho :
    s3.cfg.wf = true ∧ s3.ready 3
    ∧ (∀ q ∈ List.replicate 49 ((26 : Int), Value.scalar 0), writable s3.cfg q.1 q.2)
    ∧ writeLen s3.cfg.regmap (List.replicate 49 (26, .scalar 0)) = 255 := by
  refine ⟨tp_wf, s3_ready, fun q hq => ?_, by decide +kernel⟩
  exact writable_of_check (by revert q; decide +kernel)

/-- The three outcomes of a reply: an accepted one with a payload, one that breaks the grammar, and none (V-DEC-6, V-DEC-2,
V-ACK-1). -/
theorem witness_replyOutcomes :
    accepted 12 [0x55, 3, 0, 0x0C, 2, 0, 0x0A, 1, 0x00, 0xDE, 0x5E, 0x69] = true
    ∧ (decodedTable tp s3.dt [0x55, 3, 0, 0x0C, 2, 0, 0x0A, 1, 0x00, 0xDE, 0x5E, 0x69]).isSome = true
    ∧ accepted 12 [0x55, 3, 0, 0x0C, 2, 0, 0xC8, 1, 0xDB, 0xF4, 0x66, 0x0A] = true
    ∧ decodedTable tp s3.dt [0x55, 3, 0, 0x0C, 2, 0, 0xC8, 1, 0xDB, 0xF4, 0x66, 0x0A] = none
    ∧ accepted 12 [] = false := by decide +kernel

theorem witness_readDecodesTheReply :
    s3.cfg.wf = true ∧ s3.ready 3 ∧ (∀ i ∈ List.replicate 27 (61 : Int), (s3.cfg.regmap.findInt i).isSome = true)
    ∧ readLen (List.replicate 27 (61 : Int)) ≤ 255 ∧ readAckLen s3.cfg.regmap (List.replicate 27 61) = 253 :=
  ⟨tp_wf, s3_ready, by decide +kernel, by decide +kernel, by decide +kernel⟩

theorem witness_syncWriteSendsOneBroadcast :
    s3.portOpen = true ∧ (∀ q ∈ [((0 : Int), Value.scalar 10), (254, .scalar 20)], 0 ≤ q.1 ∧ q.1 ≤ 254 ∧ writable s3.cfg 46 q.2)
    ∧ syncLen s3.cfg.regmap 46 [(0, .scalar 10), (254, .scalar 20)] ≤ 255 := by
  refine ⟨rfl, ?_, by decide +kernel⟩
  simp only [List.mem_cons, List.not_mem_nil, or_false, forall_eq_or_imp, forall_eq]
  exact ⟨⟨by decide, by decide, writable_of_check (by decide +kernel)⟩,
    ⟨by decide, by decide, writable_of_check (by decide +kernel)⟩⟩

/-- The header-only commands, scan_modules, enter_bootloader, get_driver_info, and the getters' premise. -/
theorem witness_ready : s3.cfg.wf = true ∧ s3.ready 3 ∧ (State.reset.install 254 254 7#8).ready 254
    ∧ ∀ k : ModuleKind, readAckLen s3.cfg.regmap [(s3.cfg.bank.base k : Int) + (5 - 1)] ≤ 255 :=
  ⟨tp_wf, s3_ready, s254_ready, fun k => by cases k <;> decide +kernel⟩

theorem witness_scan : s3.cfg.wf = true ∧ s3.portOpen = true
    ∧ s3.cfg.regmap.find 5 = some ⟨5, "Status", [.u8], false, .scalar 0⟩ ∧ ∃ t, exec .scan s3 = .next t :=
  ⟨tp_wf, rfl, by decide +kernel, _, rfl⟩

theorem witness_driverBaudSendsThreeFrames : s3.ready 3 ∧ writable s3.cfg s3.cfg.regmap.baudRate (.scalar 3053)
    ∧ writable s3.cfg s3.cfg.regmap.baudRate (.scalar 12500000) :=
  ⟨s3_ready, writable_of_check (by decide +kernel), writable_of_check (by decide +kernel)⟩

theorem witness_settersWriteTheirModule :
    s3.ready 3 ∧ (State.reset.install 254 254 7#8).ready 254
    ∧ writable s3.cfg ((s3.cfg.bank.base .buzzer : Int) + (5 - 1)) (.scalar 440)
    ∧ writeLen s3.cfg.regmap [((s3.cfg.bank.base .buzzer : Int) + (5 - 1), .scalar 440)] ≤ 255
    ∧ writable s3.cfg ((s3.cfg.bank.base .servo : Int) + (1 - 1)) (.scalar 255)
    ∧ writable s3.cfg ((s3.cfg.bank.base .rgb : Int) + (1 - 1)) (.scalar (255 + 255 * 256 + 255 * 65536)) :=
  ⟨s3_ready, s254_ready, writable_of_check (by decide +kernel), by decide +kernel,
    writable_of_check (by decide +kernel), writable_of_check (by decide +kernel)⟩

/-- An operation that ends in an error. -/
theorem witness_errorsHaveNoOtherEffect : hostRequest (.ping 256) = some ⟨0x06#8, [.int 256]⟩
    ∧ ∃ t, exec (.ping 256) s3 = .next t ∧ t.result = some (.error .idRange) := ⟨rfl, _, rfl, by decide +kernel⟩

theorem witness_hostOperation : hostRequest (.setRgb 3 1 255 0 128)
      = some ⟨0x28#8, [.int 3, .int 1, .int 255, .int 0, .int 128]⟩ ∧ ∃ t, exec (.setRgb 3 1 255 0 128) s3 = .next t :=
  ⟨rfl, _, rfl⟩

/-- A state with the port closed, and one that enforces mutability. -/
def closed3 : State := { s3 with portOpen := false }
def strict3 : State := { s3 with cfg := { tp with enforceMutable := true } }

/-- Operands for each clause on a write: a pair before the failing one, an unknown index, a wrong shape, a value out of its
domain, a read-only index, and a frame one byte too long. -/
theorem witness_writeChecksInOrder :
    s3.attached 254 = false ∧ s3.attached 3 = true ∧ writable s3.cfg 10 (.scalar 1) ∧ s3.cfg.regmap.findInt 67 = none
    ∧ s3.cfg.regmap.findInt 31 = some ⟨31, "Joystick_1", [.i16, .i16, .u8], false, .tuple [0, 0, 0]⟩
    ∧ shapeOk [.i16, .i16, .u8] (.scalar 5) = false
    ∧ (shapeOk [.i16, .i16, .u8] (.tuple [1, 32768, 0]) = true
        ∧ fieldsInDomain [.i16, .i16, .u8] (Value.tuple [1, 32768, 0]).fields = false)
    ∧ (fits [.i16, .i16, .u8] (.tuple [1, 2, 3]) = true ∧ strict3.cfg.enforceMutable = true)
    ∧ writeLen s3.cfg.regmap (List.replicate 123 (10, .scalar 1)) = 256
    ∧ writeLen closed3.cfg.regmap [(10, .scalar 1)] ≤ 255 ∧ closed3.portOpen = false :=
  ⟨by decide +kernel, by decide +kernel, writable_of_check (by decide +kernel), by decide +kernel, by decide +kernel,
    by decide, by decide, by decide, by decide +kernel, by decide +kernel, rfl⟩

theorem witness_readChecksInOrder :
    s3.attached 254 = false ∧ s3.attached 3 = true ∧ (∃ i ∈ [(10 : Int), 67], s3.cfg.regmap.findInt i = none)
    ∧ (∀ i ∈ List.replicate 246 (10 : Int), (s3.cfg.regmap.findInt i).isSome = true)
    ∧ readLen (List.replicate 246 (10 : Int)) = 256 ∧ readAckLen s3.cfg.regmap (List.replicate 28 (61 : Int)) = 262
    ∧ readLen [(10 : Int)] ≤ 255 ∧ readAckLen s3.cfg.regmap [(10 : Int)] ≤ 255 ∧ closed3.portOpen = false := by decide +kernel

theorem witness_syncChecksInOrder :
    s3.cfg.regmap.findInt 67 = none ∧ s3.cfg.regmap.findInt 10 = some ⟨10, "TorqueEnable", [.u8], true, .scalar 0⟩
    ∧ writable s3.cfg 10 (.scalar 1) ∧ shapeOk [.u8] (.tuple [1]) = false
    ∧ (shapeOk [.u8] (.scalar 256) = true ∧ fieldsInDomain [.u8] (Value.scalar 256).fields = false)
    ∧ strict3.cfg.regmap.findInt 13 = some ⟨13, "PresentPosition", [.f32], false, .scalar 0⟩
    ∧ fits [.f32] (.scalar 0) = true ∧ syncLen s3.cfg.regmap 10 (List.replicate 123 ((254 : Int), .scalar 1)) = 257
    ∧ syncLen closed3.cfg.regmap 10 [((254 : Int), .scalar 1)] ≤ 255 ∧ closed3.portOpen = false :=
  ⟨by decide +kernel, by decide +kernel, writable_of_check (by decide +kernel), by decide, by decide, by decide +kernel,
    by decide, by decide +kernel, by decide +kernel, rfl⟩

/-- The clauses of the one-device commands, and of attach, detach and the baud-rate operations: states not attached, closed,
and read-only; their numeric ranges have members at every boundary. -/
theorem witness_commandAndBaudChecks :
    s3.attached 0 = false ∧ s3.attached 254 = false ∧ closed3.attached 3 = true ∧ closed3.portOpen = false
    ∧ (s3.cfg.regmap.find s3.cfg.regmap.baudRate) = some ⟨8, "BaudRate", [.u32], true, .scalar 115200⟩ ∧ s3.cfg.wf = true :=
  ⟨by decide +kernel, by decide +kernel, by decide +kernel, rfl, by decide +kernel, tp_wf⟩

/-- BaudRate read-only under enforcement: a well-formed configuration of that kind. -/
def readOnlyBaud : Params :=
  { tp with
    enforceMutable := true
    regmap :=
      { tpRegMap with
        descriptors := tpRegMap.descriptors.map (fun d => if d.index = 8 then { d with isMutable := false } else d) } }

theorem witness_readOnlyBaud : readOnlyBaud.wf = true
    ∧ readOnlyBaud.regmap.find 8 = some ⟨8, "BaudRate", [.u32], false, .scalar 115200⟩ := by decide +kernel

/-- BaudRate of one byte: no well-formed configuration (R38), and the only way a baud of the range leaves its format. -/
def byteBaud : Params :=
  { tp with
    regmap :=
      { tpRegMap with
        descriptors := tpRegMap.descriptors.map (fun d => if d.index = 8 then { d with fmt := [.u8] } else d) } }

theorem witness_byteBaud : ({ s3 with cfg := byteBaud } : State).attached 3 = true
    ∧ byteBaud.regmap.find byteBaud.regmap.baudRate = some ⟨8, "BaudRate", [.u8], true, .scalar 115200⟩
    ∧ shapeOk [.u8] (.scalar 3053) = true ∧ fieldsInDomain [.u8] [3053] = false
    ∧ fieldsInDomain [.u8] [12500000] = false := by decide +kernel

/-- An expanded operation that fails passes its error on: id 256. -/
theorem witness_accessorChecksComeFirst :
    failsWith (.setVariables 256 [((s3.cfg.bank.base .servo : Int) + (1 - 1), .scalar 0)] false) s3
      ⟨0x03#8, [.int 256, .pairs [((s3.cfg.bank.base .servo : Int) + (1 - 1), .scalar 0)], .bool false]⟩ .idRange
    ∧ failsWith (.getVariables 256 [(s3.cfg.bank.base .imu : Int) + (5 - 1)]) s3
      ⟨0x04#8, [.int 256, .ints [(s3.cfg.bank.base .imu : Int) + (5 - 1)]]⟩ .idRange :=
  ⟨⟨_, rfl, rfl⟩, ⟨_, rfl, rfl⟩⟩

theorem witness_closedPortSendsNothing : closed3.portOpen = false ∧ hostRequest .scan = some ⟨0x0D#8, []⟩
    ∧ (∃ t, exec .scan closed3 = .next t) ∧ (∀ id family, Instr.scan ≠ .attach id family) ∧ (∀ id, Instr.scan ≠ .detach id)
    ∧ (∀ baud, Instr.scan ≠ .updateMasterBaudrate baud) := ⟨rfl, rfl, ⟨_, rfl⟩, nofun, nofun, nofun⟩

theorem witness_otherInstructionsKeepEveryMirror :
    hostRequest (.frameWrite 3#8 [(10, .scalar 1)]) = none ∧ hostRequest (.crcFeed 7#8) = none
    ∧ (∃ t, exec (.frameWrite 3#8 [(10, .scalar 1)]) s3 = .next t) ∧ ∃ t, exec (.scanModules 3) s3 = .next t :=
  ⟨rfl, rfl, ⟨s3.encWrite 3#8 [(10, .scalar 1)] false, by
      simp only [exec, execFrameWrite, codecWrite]
      rw [if_pos (by decide +kernel)]⟩, _, rfl⟩

/-- The invariants hold in a state with frames in its trace and a request waiting, and it steps. -/
theorem witness_stepKeepsTheInvariants : TableInv sent2 ∧ EngineInv sent2 ∧ TraceInv sent2 ∧ ∃ t, step sent2 = .next t := by
  have h : step sent2 = exec (.ping 3) { sent2 with pending := [] } := by
    unfold step
    rw [if_pos (show sent2.cfg.wf = true from tp_wf)]
    rfl
  refine ⟨by unfold TableInv; decide +kernel, by unfold EngineInv; decide +kernel, by unfold TraceInv; decide +kernel, ?_⟩
  exact ⟨_, h.trans rfl⟩

theorem witness_attachInstallsAFreshMirror : (0 : Int) ≤ 0 ∧ (0 : Int) ≤ 254 ∧ (254 : Int) ≤ 254 ∧ (255 : Int) ≤ 255 := by decide

theorem witness_detachInstallsTheSentinel : (0 : Int) ≤ 0 ∧ (0 : Int) ≤ 255 ∧ (255 : Int) ≤ 255 := by decide

theorem witness_masterBaudReopensThePort : (3053 : Int) ≤ 3053 ∧ (3053 : Int) ≤ 12500000 ∧ (12500000 : Int) ≤ 12500000 := by
  decide

theorem witness_engineRegistersHaveOneWriter : (∃ t, exec (.reboot 3) s3 = .next t)
    ∧ (∀ b, Instr.reboot 3 ≠ .updateMasterBaudrate b) ∧ (∀ id, Instr.reboot 3 ≠ .enterBootloader id) ∧ Instr.reboot 3 ≠ .scan
    ∧ s3.portOpen = true ∧ closed3.portOpen = false := ⟨⟨_, rfl⟩, nofun, nofun, nofun, rfl, rfl⟩

/-- 10_state.md R40, 30_encoding.md R141: TP is well formed; two Commands with one byte, or a rate out of range, are not. -/
theorem test_wf_config : tp.wf = true ∧ { tp with cmd := { tpCmd with write := 0x00#8 } }.wf = false
    ∧ { tp with baudInit := 3052 }.wf = false ∧ { tp with bank := { tp.bank with imu := 62 } }.wf = false := by
  decide +kernel

end Sys2Proof.Tests
end

-- ==== The steps of the host port (00_scope.md) ====
section
/-! PROOFS. A step of the host port: what the decoder reads there, what a host operation leaves at the internal ports, and from
these O22. -/

namespace Sys2Proof.Machine

/-! ## Decoding at the host port -/

/-- The hop byte an operation was selected by is the operation's own (30_encoding.md R161). -/
theorem code_of_hostOpOf {hop : Byte} {h : HostOp} (hh : hostOpOf hop = some h) : h.code = hop := by
  simpa using List.find?_some hh

theorem hostRequest_of_decodeHostOperands {h : HostOp} {ops : List Operand} {i : Instr}
    (hd : decodeHostOperands h ops = .ok i) : hostRequest i = some ⟨h.code, ops⟩ := by
  unfold decodeHostOperands at hd
  split at hd <;> cases hd <;> rfl

/-- What the host port decodes to an instruction is that instruction's record (30_encoding.md R161). -/
theorem hostRequest_of_decodeHost {r : HostReq} {i : Instr} (hd : decodeHost r = .ok i) : hostRequest i = some r := by
  unfold decodeHost at hd
  split at hd
  case h_1 h hh => rw [hostRequest_of_decodeHostOperands hd, code_of_hostOpOf hh]
  case h_2 => cases hd

/-- A record that is no instruction goes on only for an unknown hop code (30_encoding.md R154, 60_exceptions.md R374). -/
theorem eq_of_rejectRequest_host {why : Reject} {req : HostReq} {s t : State}
    (h : rejectRequest why (.host req) s = .next t) : t = rejectUnknownOp req s := by
  cases why
  case unknownHop => exact (Host.Outcome.next.inj h).symm
  all_goals cases h

/-- All a served record of the host port can do when it goes on: run the instruction it is the record of, or fail as an unknown
operation. -/
theorem serveRequest_host_cases {req : HostReq} {s t : State} (h : serveRequest (.host req) s = .next t) :
    (∃ i, hostRequest i = some req ∧ exec i s = .next t) ∨ t = rejectUnknownOp req s := by
  unfold serveRequest at h
  split at h
  case h_1 i hd => exact .inl ⟨i, hostRequest_of_decodeHost hd, h⟩
  case h_2 => exact .inr (eq_of_rejectRequest_host h)

theorem errorEffect_rejectUnknownOp (req : HostReq) (s : State) :
    errorEffect s (rejectUnknownOp req s) req .unknownOp := accept_raiseError_eq s (some req) .unknownOp

@[simp] theorem rejectUnknownOp_internal (req : HostReq) (s : State) : (rejectUnknownOp req s).internal = s.internal := rfl

/-! ## Host operations and the internal ports -/

@[simp] theorem State.requestHdr_internal (s : State) (t : Nat) (c : Command) (second : Bool) :
    (s.requestHdr t c second).internal = s.internal := by simp [State.requestHdr_eq]

@[simp] theorem State.requestWrite_internal (s : State) (t : Nat) (pairs : List (Int × Value)) (ack : Bool) :
    (s.requestWrite t pairs ack).internal = s.internal := by simp [State.requestWrite_eq]

@[simp] theorem State.requestRead_internal (s : State) (t : Nat) (indices : List Int) :
    (s.requestRead t indices).internal = s.internal := by simp [State.requestRead_eq]

@[simp] theorem State.requestSync_internal (s : State) (i : Int) (groups : List (Int × Value)) :
    (s.requestSync i groups).internal = s.internal := by simp [State.requestSync_eq]

@[simp] theorem State.preWrite_internal (s : State) (id : Nat) (pairs : List (Int × Value)) :
    (s.preWrite id pairs).internal = s.internal := by
  unfold State.preWrite
  split <;> simp

@[simp] theorem valuesResult_state (r : State × Ack) (id : Nat) (indices : List Int) :
    (valuesResult r id indices).1 = r.1 := by
  unfold valuesResult
  split <;> rfl

@[simp] theorem bodySetVariables_internal (id : Nat) (pairs : List (Int × Value)) (ack : Bool) (s : State) :
    (bodySetVariables id pairs ack s).1.internal = s.internal := by
  unfold bodySetVariables
  split <;> simp

@[simp] theorem bodyGetVariables_internal (id : Nat) (indices : List Int) (s : State) :
    (bodyGetVariables id indices s).1.internal = s.internal := by simp [bodyGetVariables]

@[simp] theorem bodyGetter_internal (k : ModuleKind) (id m : Int) (post : Value → Value) (s : State) :
    (bodyGetter k id m post s).1.internal = s.internal := by simp [bodyGetter]

@[simp] theorem bodySetter_internal (k : ModuleKind) (id m : Int) (v : Value) (s : State) :
    (bodySetter k id m v s).1.internal = s.internal := by simp [bodySetter]

@[simp] theorem bodyCommand_internal (id : Nat) (c : Command) (s : State) :
    (bodyCommand id c s).1.internal = s.internal := by simp [bodyCommand]

@[simp] theorem bodyAcked_internal (id : Nat) (c : Command) (s : State) :
    (bodyAcked id c s).1.internal = s.internal := by simp [bodyAcked]

@[simp] theorem bodyDriverBaud_internal (id : Nat) (baud : Int) (s : State) :
    (bodyDriverBaud id baud s).1.internal = s.internal := by simp [bodyDriverBaud]

@[simp] theorem scanProbe_internal (id : Nat) (s : State) : (scanProbe id s).1.internal = s.internal := by
  unfold scanProbe
  split <;> simp

@[simp] theorem scanLoop_internal (ids : List Nat) (s : State) : (scanLoop ids s).1.internal = s.internal := by
  induction ids generalizing s with
  | nil => rfl
  | cons id ids ih => simp [scanLoop, ih]

@[simp] theorem bodyScan_internal (s : State) : (bodyScan s).1.internal = s.internal := by simp [bodyScan]

@[simp] theorem moduleScanReply_internal (id : Nat) (s : State) : (moduleScanReply id s).internal = s.internal := by
  simp [moduleScanReply]

@[simp] theorem moduleScanResult_internal (s : State) : (moduleScanResult s).1.internal = s.internal := by
  unfold moduleScanResult
  split
  · rfl
  · split <;> simp

/-- No body of a host operation makes a request of an internal port wait (40_crc.md R181, log 3). -/
theorem hostBody_internal (p : Params) (i : Instr) (s : State) : (hostBody p i s).1.internal = s.internal := by
  cases i
  case eepromWrite id ack => cases ack <;> simp [hostBody]
  all_goals simp [hostBody]

/-- A host operation, failed or run, leaves what waits at the internal ports. -/
theorem internal_of_exec_host {i : Instr} {req : HostReq} {s t : State} (h : hostRequest i = some req)
    (he : exec i s = .next t) : t.internal = s.internal := by
  rw [exec_eq_runOp h] at he
  obtain rfl := Host.Outcome.next.inj he
  obtain ⟨e, -, hr⟩ | ⟨-, hr⟩ := runOp_cases i (hostCheck i) (hostBody s.cfg i) s
  · simp [hr]
  · simp [hr, hostBody_internal]

/-! ## What a step runs -/

theorem step_of_wf {s : State} (hw : s.cfg.wf = true) : step s = serveNext s := if_pos hw

theorem serveRequest_of_decode {r : Request} {s : State} {i : Instr} (hd : decode s.cfg.cmd r = .ok i) :
    serveRequest r s = exec i s := by simp [serveRequest, hd]

/-- With none waiting at an internal port, a step that goes on stays where it is, or serves the next host operation. -/
theorem serveNext_host_cases {s t : State} (h : s.internal = []) (hs : serveNext s = .next t) :
    t = s ∨ ∃ req rest, s.pending = req :: rest ∧ serveRequest (.host req) { s with pending := rest } = .next t := by
  cases hp : s.pending with
  | nil =>
    rw [serveNext_none h hp] at hs
    exact .inl (Host.Outcome.next.inj hs).symm
  | cons req rest =>
    rw [serveNext_host h hp] at hs
    split at hs
    · exact .inr ⟨req, rest, rfl, hs⟩
    · cases hs

/-- A served record of the host port leaves what waits at the internal ports. -/
theorem internal_of_serveRequest_host {req : HostReq} {s t : State} (h : serveRequest (.host req) s = .next t) :
    t.internal = s.internal := by
  obtain ⟨i, hi, he⟩ | rfl := serveRequest_host_cases h
  · exact internal_of_exec_host hi he
  · exact rejectUnknownOp_internal req s

/-- Settles O22, by what is next at the ports: `serveNext_internal`, `serveNext_host` and, for a step that goes on,
`serveNext_host_cases`. -/
theorem stepRunsTheDecodedInstruction : Obligations.StepRunsTheDecodedInstruction := by
  intro s hw
  rw [step_of_wf hw]
  refine ⟨fun r rest i hr hd => ?_, fun h => ⟨fun req rest i hidle hp hd => ?_, fun t ht => ?_⟩⟩
  · exact (serveNext_internal hr).trans (serveRequest_of_decode hd)
  · rw [serveNext_host h hp, if_pos hidle]
    exact serveRequest_of_decode hd
  · obtain rfl | ⟨req, rest, hp, hserve⟩ := serveNext_host_cases h ht
    · exact ⟨h, .inl rfl⟩
    · refine ⟨(internal_of_serveRequest_host hserve).trans h, .inr ⟨req, rest, hp, ?_⟩⟩
      obtain hrun | rfl := serveRequest_host_cases hserve
      · exact .inl hrun
      · exact .inr (errorEffect_rejectUnknownOp req _)

end Sys2Proof.Machine
end

-- ==== What the host operations keep (10_state.md) ====
section
/-! PROOFS. What a host operation leaves alone, as relations between the state before and the state after that compose along a
body (10_state.md R30, R48 to R59); all an instruction of an internal port can do; all a step can do; and from these O49 and
O56. -/

namespace Sys2Proof.Machine

/-! ## Two relations that compose -/

/-- `t` comes after `s` within one operation: the configuration and the latched request are the same, and the trace has only
grown (10_state.md R31, R57, R59). -/
structure Continues (s t : State) : Prop where
  cfg : t.cfg = s.cfg
  op : t.op = s.op
  trace : s.trace <+: t.trace

/-- `t` comes after `s` within one operation and has the same engine registers but `ack_size` (10_state.md R48 to R50, R53,
R54). -/
structure EngineKept (s t : State) : Prop extends Continues s t where
  baudRate : t.baudRate = s.baudRate
  settleDelay : t.settleDelay = s.settleDelay
  lastScanned : t.lastScanned = s.lastScanned
  portOpen : t.portOpen = s.portOpen
  timeoutSel : t.timeoutSel = s.timeoutSel

theorem Continues.of_eq {s t : State} (hc : t.cfg = s.cfg) (hop : t.op = s.op) (ht : t.trace = s.trace) :
    Continues s t := ⟨hc, hop, [], by simp [ht]⟩

theorem Continues.trans {s t u : State} (h : Continues s t) (h' : Continues t u) : Continues s u :=
  ⟨h'.cfg.trans h.cfg, h'.op.trans h.op, h.trace.trans h'.trace⟩

theorem EngineKept.refl (s : State) : EngineKept s s := ⟨.of_eq rfl rfl rfl, rfl, rfl, rfl, rfl, rfl⟩

theorem EngineKept.trans {s t u : State} (h : EngineKept s t) (h' : EngineKept t u) : EngineKept s u :=
  ⟨h.toContinues.trans h'.toContinues, h'.baudRate.trans h.baudRate, h'.settleDelay.trans h.settleDelay,
    h'.lastScanned.trans h.lastScanned, h'.portOpen.trans h.portOpen, h'.timeoutSel.trans h.timeoutSel⟩

/-! ## The shared operations -/

theorem engineKept_setPhase (s : State) (ph : Phase) : EngineKept s (s.setPhase ph) :=
  ⟨.of_eq rfl rfl rfl, rfl, rfl, rfl, rfl, rfl⟩

theorem engineKept_emit (s : State) (e : Event) : EngineKept s (s.emit e) :=
  ⟨⟨rfl, rfl, ⟨_, rfl⟩⟩, rfl, rfl, rfl, rfl, rfl⟩

theorem engineKept_writeMirror (s : State) (slot : Nat) (ws : List (Nat × Value)) : EngineKept s (s.writeMirror slot ws) :=
  ⟨.of_eq rfl rfl rfl, rfl, rfl, rfl, rfl, rfl⟩

theorem engineKept_install (s : State) (slot id : Nat) (fam : Byte) : EngineKept s (s.install slot id fam) :=
  ⟨.of_eq rfl rfl rfl, rfl, rfl, rfl, rfl, rfl⟩

theorem engineKept_installSentinel (s : State) (slot : Nat) : EngineKept s (s.installSentinel slot) :=
  engineKept_install s slot bcast s.cfg.sentinelFamily

theorem engineKept_checkCrc (s : State) : EngineKept s s.checkCrc :=
  ⟨.of_eq rfl rfl rfl, rfl, rfl, rfl, rfl, rfl⟩

theorem engineKept_encode (s : State) (t : Byte) (c : Command) (payload : List Byte) (ack : Nat) :
    EngineKept s (s.encode t c payload ack) := ⟨.of_eq rfl rfl rfl, rfl, rfl, rfl, rfl, rfl⟩

theorem engineKept_send (s : State) : EngineKept s s.send :=
  ⟨⟨s.send_cfg, s.send_op, by simp⟩, s.send_baudRate, s.send_settleDelay, s.send_lastScanned, s.send_portOpen,
    s.send_timeoutSel⟩

/-- Every request is one encode and one send (42_bus_master.md R257). -/
theorem engineKept_request (s : State) (t : Byte) (c : Command) (payload : List Byte) (ack : Nat) :
    EngineKept s ((s.setPhase .encode).encode t c payload ack).send :=
  (engineKept_setPhase s .encode).trans <| (engineKept_encode ..).trans (engineKept_send _)

theorem engineKept_requestHdr (s : State) (t : Nat) (c : Command) (second : Bool) :
    EngineKept s (s.requestHdr t c second) := engineKept_request ..

theorem engineKept_requestWrite (s : State) (t : Nat) (pairs : List (Int × Value)) (ack : Bool) :
    EngineKept s (s.requestWrite t pairs ack) := engineKept_request ..

theorem engineKept_requestRead (s : State) (t : Nat) (indices : List Int) : EngineKept s (s.requestRead t indices) :=
  engineKept_request ..

theorem engineKept_requestSync (s : State) (i : Int) (groups : List (Int × Value)) :
    EngineKept s (s.requestSync i groups) := engineKept_request ..

theorem engineKept_readReply (s : State) (n : Nat) : EngineKept s (s.readReply n) :=
  ⟨⟨rfl, rfl, ⟨_, rfl⟩⟩, rfl, rfl, rfl, rfl, rfl⟩

theorem engineKept_ackProtocol (s : State) : EngineKept s s.ackProtocol.1 :=
  ⟨⟨s.ackProtocol_cfg, s.ackProtocol_op, by simp⟩, s.ackProtocol_baudRate, s.ackProtocol_settleDelay,
    s.ackProtocol_lastScanned, s.ackProtocol_portOpen, s.ackProtocol_timeoutSel⟩

theorem engineKept_preWrite (s : State) (id : Nat) (pairs : List (Int × Value)) : EngineKept s (s.preWrite id pairs) := by
  unfold State.preWrite
  split
  · exact .refl s
  · exact engineKept_writeMirror ..

/-! ## The bodies of the host operations -/

theorem engineKept_bodySetVariables (id : Nat) (pairs : List (Int × Value)) (ack : Bool) (s : State) :
    EngineKept s (bodySetVariables id pairs ack s).1 := by
  have hsent : EngineKept s ((s.preWrite id pairs).requestWrite id pairs ack) :=
    (engineKept_preWrite ..).trans (engineKept_requestWrite ..)
  unfold bodySetVariables
  split
  · rw [valuesResult_state]
    exact hsent.trans (engineKept_ackProtocol _)
  · exact hsent

theorem engineKept_bodyGetVariables (id : Nat) (indices : List Int) (s : State) :
    EngineKept s (bodyGetVariables id indices s).1 := by
  rw [bodyGetVariables, valuesResult_state]
  exact (engineKept_requestRead ..).trans (engineKept_ackProtocol _)

theorem engineKept_bodyAcked (id : Nat) (c : Command) (s : State) : EngineKept s (bodyAcked id c s).1 :=
  (engineKept_requestHdr ..).trans (engineKept_ackProtocol _)

theorem engineKept_bodyDriverBaud (id : Nat) (baud : Int) (s : State) : EngineKept s (bodyDriverBaud id baud s).1 :=
  (engineKept_writeMirror ..).trans <| (engineKept_requestWrite ..).trans <|
    (engineKept_requestHdr ..).trans (engineKept_requestHdr ..)

theorem engineKept_scanProbe (id : Nat) (s : State) : EngineKept s (scanProbe id s).1 := by
  have hread : EngineKept s ((s.install id id s.cfg.scanFamily).requestHdr id .ping false).ackProtocol.1 :=
    (engineKept_install ..).trans <| (engineKept_requestHdr ..).trans (engineKept_ackProtocol _)
  unfold scanProbe
  split
  · exact hread
  · exact hread.trans (engineKept_installSentinel ..)

theorem engineKept_scanLoop (ids : List Nat) (s : State) : EngineKept s (scanLoop ids s).1 := by
  induction ids generalizing s with
  | nil => exact .refl s
  | cons id ids ih => exact (engineKept_scanProbe id s).trans (ih _)

theorem engineKept_moduleScanReply (id : Nat) (s : State) : EngineKept s (moduleScanReply id s) :=
  (engineKept_requestHdr ..).trans <| (engineKept_emit ..).trans <|
    (engineKept_requestHdr ..).trans (engineKept_readReply ..)

theorem engineKept_moduleScanResult (s : State) : EngineKept s (moduleScanResult s).1 := by
  unfold moduleScanResult
  split
  · exact .refl s
  · split <;> exact engineKept_checkCrc s

/-- The body of `scan` is its loop between two timeout selections (42_bus_master.md R300). -/
theorem hostBody_scan (p : Params) (s : State) :
    (hostBody p .scan s).1 = ((scanLoop scanIds (s.selectTimeout .scan)).1.selectTimeout .normal).recordScanned
      (scanLoop scanIds (s.selectTimeout .scan)).2 := rfl

/-- The body of `enter_bootloader` closes the port after its frame (42_bus_master.md R275). -/
theorem hostBody_enterBootloader (p : Params) (id : Int) (s : State) :
    (hostBody p (.enterBootloader id) s).1 = (s.requestHdr id.toNat .blJump false).closePort := rfl

/-- Every body but three keeps the engine registers (10_state.md R48 to R50, R53, R54). -/
theorem hostBody_cases (p : Params) (i : Instr) (s : State) :
    EngineKept s (hostBody p i s).1 ∨ i = .scan ∨ (∃ baud, i = .updateMasterBaudrate baud)
      ∨ ∃ id, i = .enterBootloader id := by
  cases i
  case scan => exact .inr (.inl rfl)
  case updateMasterBaudrate baud => exact .inr (.inr (.inl ⟨baud, rfl⟩))
  case enterBootloader id => exact .inr (.inr (.inr ⟨id, rfl⟩))
  all_goals apply Or.inl
  case attach => exact engineKept_install ..
  case detach => exact engineKept_installSentinel ..
  case setVariables | setBuzzer | setServo | setRgb => exact engineKept_bodySetVariables ..
  case setVariablesSync => exact engineKept_requestSync ..
  case ping => exact engineKept_bodyAcked ..
  case reboot | hardReset | tune | resetEncoder => exact engineKept_requestHdr ..
  case eepromWrite id ack =>
    cases ack
    · exact engineKept_requestHdr ..
    · exact engineKept_bodyAcked ..
  case scanModules => exact (engineKept_moduleScanReply ..).trans (engineKept_moduleScanResult _)
  case updateDriverBaudrate => exact engineKept_bodyDriverBaud ..
  case getVariables | getDriverInfo | getButton | getLight | getJoystick | getDistance | getQtr | getPotentiometer
      | getImu => exact engineKept_bodyGetVariables ..
  all_goals exact .refl s

/-- Every body stays within its operation (10_state.md R31, R57, R59). -/
theorem hostBody_continues (p : Params) (i : Instr) (s : State) : Continues s (hostBody p i s).1 := by
  obtain hkept | rfl | ⟨baud, rfl⟩ | ⟨id, rfl⟩ := hostBody_cases p i s
  · exact hkept.toContinues
  · have hloop := (engineKept_scanLoop scanIds (s.selectTimeout .scan)).toContinues
    have hbefore : Continues s (s.selectTimeout .scan) := ⟨rfl, rfl, ⟨_, rfl⟩⟩
    rw [hostBody_scan]
    exact hbefore.trans (hloop.trans ⟨by simp, by simp, by simp⟩)
  · exact ⟨rfl, rfl, ⟨_, rfl⟩⟩
  · have hsent := (engineKept_requestHdr s id.toNat .blJump false).toContinues
    rw [hostBody_enterBootloader]
    exact hsent.trans ⟨by simp, by simp, by simp⟩

/-! ## All an instruction and a step can do -/

/-- All a host operation can do: fail in VALIDATE, or run its body (42_bus_master.md R258). -/
theorem exec_host_cases {i : Instr} {req : HostReq} {s t : State} (h : hostRequest i = some req)
    (he : exec i s = .next t) :
    (∃ e, t = (s.accept (some req)).raiseError e)
    ∨ (hostCheck i (s.accept (some req)) = none
      ∧ ∃ r, t = (hostBody s.cfg i (s.accept (some req))).1.finish r) := by
  rw [exec_eq_runOp h] at he
  obtain rfl := Host.Outcome.next.inj he
  obtain ⟨e, -, hr⟩ | ⟨hc, hr⟩ := runOp_cases i (hostCheck i) (hostBody s.cfg i) s
  · exact .inl ⟨e, by rw [hr, h]⟩
  · rw [h] at hc hr
    exact .inr ⟨hc, _, hr⟩

/-- The acknowledgment a header-only command expects is at most MODSCAN_RESP (41_codec.md R206). -/
theorem hdrAck_le (second : Bool) (c : Command) : hdrAck second c ≤ 18 := by
  cases c
  case moduleScan => cases second <;> decide
  all_goals exact Nat.le_of_ble_eq_true rfl

/-- A write that has a frame expects a reply that is one (41_codec.md R208, R215). -/
theorem writeAck_le {rm : RegMap} {pairs : List (Int × Value)} (he : ∀ q ∈ pairs, rm.encodable q.1 q.2 = true)
    (hl : writeLen rm pairs ≤ maxFrame) (ack : Bool) :
    (if ack then hdrLen + (writePayload rm pairs).length + crcLen else 0) ≤ maxFrame := by
  cases ack
  · exact Nat.zero_le _
  · rw [if_pos rfl, length_writePayload he]
    exact hl

/-- A state that an encode leaves, with a legal acknowledgment size (10_state.md R51, 41_codec.md R200). -/
def Encoded (s t : State) : Prop := ∃ b c payload ack, ack ≤ maxFrame ∧ t = s.encode b c payload ack

theorem encoded_of_codecHdr {b : Byte} {c : Command} {second : Bool} {s t : State}
    (h : codecHdr b c second s = .next t) : Encoded s t := by
  obtain ⟨-, e⟩ | ⟨-, e⟩ := codecHdr_cases b c second s <;> rw [e] at h
  · have hle := hdrAck_le second c
    exact ⟨b, c, [], hdrAck second c, by unfold maxFrame; omega, (Host.Outcome.next.inj h).symm⟩
  · cases h

theorem encoded_of_codecWrite {b : Byte} {pairs : List (Int × Value)} {ack : Bool} {s t : State}
    (h : codecWrite b pairs ack s = .next t) : Encoded s t := by
  obtain ⟨hwf, e⟩ | ⟨-, e⟩ := codecWrite_cases b pairs ack s <;> rw [e] at h
  · simp only [writeEncodable, Bool.and_eq_true, List.all_eq_true, decide_eq_true_eq] at hwf
    exact ⟨b, _, _, _, writeAck_le hwf.1 hwf.2 ack, (Host.Outcome.next.inj h).symm⟩
  · cases h

theorem encoded_of_execFrameRead {b : Byte} {indices : List Int} {s t : State}
    (h : execFrameRead b indices s = .next t) : Encoded s t := by
  obtain ⟨-, hwf, e⟩ | ⟨-, e⟩ | ⟨-, -, e⟩ := execFrameRead_cases b indices s <;> rw [e] at h
  · simp only [readEncodable, Bool.and_eq_true, decide_eq_true_eq] at hwf
    exact ⟨b, .read, _, _, hwf.2, (Host.Outcome.next.inj h).symm⟩
  · cases h
  · cases h

theorem encoded_of_execFrameSyncWrite {index : Int} {groups : List (Int × Value)} {s t : State}
    (h : execFrameSyncWrite index groups s = .next t) : Encoded s t := by
  obtain ⟨-, e⟩ | ⟨-, e⟩ := execFrameSyncWrite_cases index groups s <;> rw [e] at h
  · exact ⟨_, .syncWrite, _, 0, Nat.zero_le _, (Host.Outcome.next.inj h).symm⟩
  · cases h

/-- All an instruction of an internal port can do: the codec encodes one frame, and the CRC port writes its register and what it
returned (40_crc.md R171 to R173, 41_codec.md R200). -/
theorem exec_internal_cases {i : Instr} {s t : State} (h : hostRequest i = none) (he : exec i s = .next t) :
    Encoded s t ∨ ∃ r out, t = { s with crcReg := r, crcOut := out } := by
  cases i
  case frameWrite | frameWriteAck => exact .inl (encoded_of_codecWrite he)
  case frameRead => exact .inl (encoded_of_execFrameRead he)
  case frameSyncWrite => exact .inl (encoded_of_execFrameSyncWrite he)
  case framePing | frameEepromWrite | frameReboot | frameHardReset | frameTune | frameResetEnc | frameModuleScan
      | frameBlJump | frameEepromWriteAck => exact .inl (encoded_of_codecHdr he)
  case crcInit | crcFeed | crcRead => exact .inr ⟨_, _, (Host.Outcome.next.inj he).symm⟩
  all_goals cases h

/-- A request of an internal port goes on only as an instruction (30_encoding.md R141, 40_crc.md R182). -/
theorem serveRequest_internal_cases {r : InternalReq} {s t : State} (h : serveRequest (.internal r) s = .next t) :
    ∃ i, exec i s = .next t := by
  unfold serveRequest at h
  split at h
  case h_1 i _ => exact ⟨i, h⟩
  case h_2 why _ => cases why <;> cases h

/-- All a step that goes on can do, once its request is taken from the waiting ones: nothing, run an instruction, or fail an
unknown operation (00_scope.md R4, 30_encoding.md R154). -/
theorem step_cases {s t : State} (h : step s = .next t) :
    t = s ∨ ∃ ps rs, (∃ i, exec i { s with pending := ps, internal := rs } = .next t)
      ∨ ∃ req, t = rejectUnknownOp req { s with pending := ps, internal := rs } := by
  unfold step at h
  split at h
  · cases hr : s.internal with
    | cons r rest =>
      rw [serveNext_internal hr] at h
      exact .inr ⟨s.pending, rest, .inl (serveRequest_internal_cases h)⟩
    | nil =>
      obtain rfl | ⟨req, rest, -, hserve⟩ := serveNext_host_cases hr h
      · exact .inl rfl
      · obtain ⟨i, -, he⟩ | rfl := serveRequest_host_cases hserve
        · exact .inr ⟨rest, s.internal, .inl ⟨i, he⟩⟩
        · exact .inr ⟨rest, s.internal, .inr ⟨req, rfl⟩⟩
  · cases h

/-- What holds whatever waits at the ports, and is kept by every instruction and by a failed unknown operation, is kept by every
step. -/
theorem step_preserves {P : State → Prop}
    (hports : ∀ s ps rs, P s → P { s with pending := ps, internal := rs })
    (hexec : ∀ i s t, P s → exec i s = .next t → P t) (hreject : ∀ req s, P s → P (rejectUnknownOp req s))
    {s t : State} (hs : P s) (h : step s = .next t) : P t := by
  obtain rfl | ⟨ps, rs, ⟨i, he⟩ | ⟨req, rfl⟩⟩ := step_cases h
  · exact hs
  · exact hexec i _ t (hports s ps rs hs) he
  · exact hreject req _ (hports s ps rs hs)

/-! ## Every host operation ends -/

/-- Settles O49: a failed operation raises its error on the accepted state, and a body stays within its operation
(`hostBody_continues`). -/
theorem everyHostOperationEnds : Obligations.EveryHostOperationEnds := by
  intro s i req h
  have he := exec_eq_runOp h s
  obtain ⟨e, ht⟩ | ⟨-, r, ht⟩ := exec_host_cases h he
  · exact ⟨_, [], he, by rw [ht]; simp⟩
  · obtain ⟨-, hop, es, htrace⟩ := hostBody_continues s.cfg i (s.accept (some req))
    exact ⟨_, es, he, by rw [ht]; simp [hop, ← htrace]⟩

/-! ## The writers of the engine registers -/

/-- The engine registers and the configuration after instruction i: only the writers the rules name have written them
(10_state.md R30, R48 to R50, R53, R54). -/
def WrittenByOwner (i : Instr) (s t : State) : Prop :=
  t.cfg = s.cfg
  ∧ ((∀ b, i ≠ .updateMasterBaudrate b) → t.baudRate = s.baudRate ∧ t.settleDelay = s.settleDelay
      ∧ (s.portOpen = false → t.portOpen = false))
  ∧ ((∀ id, i ≠ .enterBootloader id) → s.portOpen = true → t.portOpen = true)
  ∧ (i ≠ .scan → t.lastScanned = s.lastScanned ∧ t.timeoutSel = s.timeoutSel)

theorem EngineKept.writtenByOwner {s t : State} (h : EngineKept s t) (i : Instr) : WrittenByOwner i s t :=
  ⟨h.cfg, fun _ => ⟨h.baudRate, h.settleDelay, fun hp => h.portOpen.trans hp⟩, fun _ hp => h.portOpen.trans hp,
    fun _ => ⟨h.lastScanned, h.timeoutSel⟩⟩

/-- The three bodies that write an engine register write those they own, and no other. -/
theorem hostBody_writtenByOwner (p : Params) (i : Instr) (s : State) : WrittenByOwner i s (hostBody p i s).1 := by
  obtain hkept | rfl | ⟨baud, rfl⟩ | ⟨id, rfl⟩ := hostBody_cases p i s
  · exact hkept.writtenByOwner i
  · have hloop := engineKept_scanLoop scanIds (s.selectTimeout .scan)
    rw [hostBody_scan]
    simp [WrittenByOwner, hloop.cfg, hloop.baudRate, hloop.settleDelay, hloop.portOpen]
  · exact ⟨rfl, fun hne => absurd rfl (hne baud), fun _ _ => rfl, fun _ => ⟨rfl, rfl⟩⟩
  · have hsent := engineKept_requestHdr s id.toNat .blJump false
    rw [hostBody_enterBootloader]
    simp [WrittenByOwner, hsent.cfg, hsent.baudRate, hsent.settleDelay, hsent.lastScanned, hsent.timeoutSel]

/-- Settles O56, by what an instruction can do at its port: neither the codec nor the CRC port has an engine register but
`ack_size`, and a host operation's body writes what it owns (`hostBody_writtenByOwner`). -/
theorem engineRegistersHaveOneWriter : Obligations.EngineRegistersHaveOneWriter := by
  intro s t i he
  show WrittenByOwner i s t
  cases h : hostRequest i with
  | none =>
    obtain ⟨b, c, payload, ack, -, rfl⟩ | ⟨r, out, rfl⟩ := exec_internal_cases h he
    · exact (engineKept_encode s b c payload ack).writtenByOwner i
    · simp [WrittenByOwner]
  | some req =>
    obtain ⟨e, rfl⟩ | ⟨-, r, rfl⟩ := exec_host_cases h he
    · simp [WrittenByOwner]
    · exact hostBody_writtenByOwner s.cfg i (s.accept (some req))

end Sys2Proof.Machine
end

-- ==== The device table and the reset state (10_state.md) ====
section
/-! PROOFS. The canonical form of the device table makes equal mirrors equal data; what a decode and a write give a mirror is of
its descriptor's format, so every operation keeps the table's invariant; who leaves the mirrors alone; the reset state; and from
these O11, O26, O57 and O58. -/

namespace Sys2Proof.Machine

/-! ## Tables in canonical form -/

/-- In a list of rising addresses a cell is listed where its value is looked up. -/
theorem lookupCell_eq_some_iff {m : Cells} (h : m.Pairwise (fun c d => c.1 < d.1)) {a : Nat} {v : Value} :
    lookupCell a m = some v ↔ (a, v) ∈ m := by
  induction m with
  | nil => simp
  | cons c rest ih =>
    obtain ⟨b, w⟩ := c
    rw [List.pairwise_cons] at h
    obtain ⟨hfirst, hrest⟩ := h
    by_cases hab : b = a
    · subst hab
      have hnot : (b, v) ∉ rest := fun hc => Nat.lt_irrefl b (hfirst _ hc)
      simp [lookupCell, hnot, eq_comm]
    · simp [lookupCell, hab, Ne.symm hab, ih hrest]

/-- Lists of rising addresses with the same value at every address are equal. -/
theorem eq_of_lookupCell_eq {m m' : Cells} (h : m.Pairwise (fun c d => c.1 < d.1))
    (h' : m'.Pairwise (fun c d => c.1 < d.1)) (hl : ∀ a, lookupCell a m = lookupCell a m') : m = m' := by
  have : Std.Irrefl (fun c d : Nat × Value => c.1 < d.1) := ⟨fun c => Nat.lt_irrefl c.1⟩
  have : Std.Antisymm (fun c d : Nat × Value => c.1 < d.1) := ⟨fun _ _ hcd hdc => absurd hcd (Nat.lt_asymm hdc)⟩
  refine h.eq_of_mem_iff h' fun c => ?_
  rw [← lookupCell_eq_some_iff h, ← lookupCell_eq_some_iff h', hl]

/-- A cell that does not exist is not listed (10_state.md R42). -/
theorem lookupCell_of_cellDesc_none {p : Params} {m : Cells} (h : cellsWf p m = true) {a : Nat}
    (hd : cellDesc p a = none) : lookupCell a m = none := by
  obtain ⟨hrising, hok⟩ := (cellsWf_iff p m).mp h
  cases hl : lookupCell a m with
  | none => rfl
  | some v =>
    have := hok _ ((lookupCell_eq_some_iff hrising).mp hl)
    simp [cellOk, hd] at this

/-- The value an unlisted cell reads as is not listed (log 5). -/
theorem lookupCell_ne_unlistedValue {p : Params} {m : Cells} (h : cellsWf p m = true) {a : Nat} {d : Descriptor}
    (hd : cellDesc p a = some d) : lookupCell a m ≠ some (unlistedValue p d) := by
  obtain ⟨hrising, hok⟩ := (cellsWf_iff p m).mp h
  intro hl
  have := hok _ ((lookupCell_eq_some_iff hrising).mp hl)
  simp [cellOk, hd] at this

/-- A value that is not the default is not lost by reading with the default. -/
theorem eq_of_getD_eq {α : Type} {x y : Option α} {u : α} (hx : x ≠ some u) (hy : y ≠ some u)
    (h : x.getD u = y.getD u) : x = y := by
  cases x with
  | none =>
    cases y with
    | none => rfl
    | some b => exact absurd (congrArg some h.symm) hy
  | some a =>
    cases y with
    | none => exact absurd (congrArg some h) hx
    | some b => exact congrArg some h

/-- Tables in canonical form that read the same at an address list the same there. -/
theorem lookupCell_eq_of_readCells_eq {p : Params} {m m' : Cells} (h : cellsWf p m = true) (h' : cellsWf p m' = true)
    {a : Nat} (hr : readCells p m (a / 256) (a % 256) = readCells p m' (a / 256) (a % 256)) :
    lookupCell a m = lookupCell a m' := by
  have haddr : cellAddr (a / 256) (a % 256) = a := by unfold cellAddr; omega
  have hidx : ¬ 256 ≤ a % 256 := by omega
  cases hd : cellDesc p a with
  | none => rw [lookupCell_of_cellDesc_none h hd, lookupCell_of_cellDesc_none h' hd]
  | some d =>
    simp only [readCells, if_neg hidx, haddr, hd, Option.some.injEq] at hr
    exact eq_of_getD_eq (lookupCell_ne_unlistedValue h hd) (lookupCell_ne_unlistedValue h' hd) hr

/-- Settles O11: at every address the two tables list the same (`lookupCell_eq_of_readCells_eq`). -/
theorem tablesThatReadAlikeAreEqual : Obligations.TablesThatReadAlikeAreEqual := by
  intro p m m' h h' hr
  exact eq_of_lookupCell_eq ((cellsWf_iff p m).mp h).1 ((cellsWf_iff p m').mp h').1
    fun a => lookupCell_eq_of_readCells_eq h h' (hr _ _)

/-! ## The reset state -/

/-- The settle delay is 30 bit times (10_state.md R49). -/
theorem settleOf_eq (baud : Nat) : settleOf baud = 30 / (baud : Rat) := by
  unfold settleOf
  ring

/-- An unlisted cell reads as the sentinel's value, index by index (10_state.md R45, R63). -/
theorem unlistedValue_of_find {p : Params} {idx : Nat} {d : Descriptor} (hd : p.regmap.find idx = some d) :
    unlistedValue p d = if idx = 1 then .scalar 255 else if idx = 2 then .scalar p.sentinelFamily.toNat
      else d.resetValue := by
  simp [unlistedValue, freshValue, RegMap.index_of_find hd, idxDeviceID, idxDeviceFamily, bcast]

/-- Settles O26: every register is the record's own field, and with no cell listed a mirror reads as the sentinel's. -/
theorem resetLeavesTheStatedValues : Obligations.ResetLeavesTheStatedValues := by
  intro p
  refine ⟨rfl, fun slot idx hs hi => ?_, rfl, settleOf_eq p.baudInit, rfl, rfl, rfl, rfl, rfl, rfl, rfl, rfl, rfl, rfl, rfl⟩
  have hread : (State.resetWith p).read slot idx = (p.regmap.find idx).map (unlistedValue p) :=
    readCells_of_not_listed hs hi (by simp [State.resetWith])
  rw [hread]
  exact Option.map_congr fun d hd => unlistedValue_of_find hd

/-! ## Who leaves the mirrors alone -/

@[simp] theorem State.requestHdr_dt (s : State) (t : Nat) (c : Command) (second : Bool) :
    (s.requestHdr t c second).dt = s.dt := by simp [State.requestHdr_eq]

@[simp] theorem State.requestSync_dt (s : State) (i : Int) (groups : List (Int × Value)) :
    (s.requestSync i groups).dt = s.dt := by simp [State.requestSync_eq]

@[simp] theorem State.requestHdr_ackSize (s : State) (t : Nat) (c : Command) (second : Bool) :
    (s.requestHdr t c second).ackSize = hdrAck second c := by simp [State.requestHdr_eq]

/-- A reply of ten bytes or fewer carries no pair, so its acknowledgment writes no mirror (42_bus_master.md R280). -/
theorem State.ackProtocol_dt_of_ackSize_le {s : State} (h : s.ackSize ≤ 10) : s.ackProtocol.1.dt = s.dt := by
  have hlen : (s.answer s.ackSize).length ≤ 10 := (s.length_answer_le _).trans h
  rw [State.ackProtocol_eq]
  obtain e | e | e | e := classifyReply_of_length_le (rm := s.cfg.regmap) (n := s.ackSize) hlen <;> simp [e]

@[simp] theorem bodyCommand_dt (id : Nat) (c : Command) (s : State) : (bodyCommand id c s).1.dt = s.dt := by
  simp [bodyCommand]

/-- A header-only command of the host port expects ten bytes at most (41_codec.md R206). -/
theorem hdrAck_false_le (c : Command) : hdrAck false c ≤ 10 := by cases c <;> decide

@[simp] theorem bodyAcked_dt (id : Nat) (c : Command) (s : State) : (bodyAcked id c s).1.dt = s.dt := by
  have hack : (s.requestHdr id c false).ackSize ≤ 10 := by simpa using hdrAck_false_le c
  exact (State.ackProtocol_dt_of_ackSize_le hack).trans (s.requestHdr_dt id c false)

@[simp] theorem moduleScanReply_dt (id : Nat) (s : State) : (moduleScanReply id s).dt = s.dt := by
  simp [moduleScanReply]

@[simp] theorem moduleScanResult_dt (s : State) : (moduleScanResult s).1.dt = s.dt := by
  unfold moduleScanResult
  split
  · rfl
  · split <;> simp

/-- The bodies of the header-only commands, of `scan_modules`, of `set_variables_sync` and of `update_master_baudrate` write no
mirror (10_state.md R44). -/
theorem hostBody_dt_of_nonwriter (p : Params) {i : Instr} {id b : Int} {ack : Bool} {gs : List (Int × Value)}
    (hi : i ∈ [Instr.setVariablesSync b gs, .ping id, .reboot id, .hardReset id, .eepromWrite id ack, .tune id,
      .resetEncoder id, .enterBootloader id, .scanModules id, .updateMasterBaudrate b]) (s : State) :
    (hostBody p i s).1.dt = s.dt := by
  cases i
  case eepromWrite id ack => cases ack <;> simp [hostBody]
  case setVariablesSync | ping | reboot | hardReset | tune | resetEncoder | enterBootloader | scanModules
      | updateMasterBaudrate => simp [hostBody]
  all_goals simp at hi

/-- The codec and the CRC port write no mirror (10_state.md R44). -/
theorem dt_of_exec_internal {i : Instr} {s t : State} (h : hostRequest i = none) (he : exec i s = .next t) :
    t.dt = s.dt := by
  obtain ⟨b, c, payload, ack, -, rfl⟩ | ⟨r, out, rfl⟩ := exec_internal_cases h he <;> rfl

/-- Settles O57: at an internal port by `dt_of_exec_internal`, at the host port by the bodies (`hostBody_dt_of_nonwriter`). -/
theorem otherInstructionsKeepEveryMirror : Obligations.OtherInstructionsKeepEveryMirror := by
  intro s t i id b ack gs hi he
  cases h : hostRequest i with
  | none => exact dt_of_exec_internal h he
  | some req =>
    have hmem := hi.resolve_right (by simp [h])
    obtain ⟨e, rfl⟩ | ⟨-, r, rfl⟩ := exec_host_cases h he
    · rfl
    · exact hostBody_dt_of_nonwriter s.cfg hmem (s.accept (some req))

/-! ## Decoded values are of their format -/

/-- A decoded field is in the domain of its type (10_state.md R43, 30_encoding.md R115). -/
theorem inDomain_decField (t : Prim) {B : List Byte} (h : B.length = t.width) : t.inDomain (decField t B) = true := by
  have hlt := leValue_lt B
  rw [h] at hlt
  rw [Prim.inDomain_iff]
  cases t <;> simp only [decField, untc, Prim.signed, Prim.width, Bool.false_eq_true, if_true, if_false] at hlt ⊢ <;>
    norm_num at hlt ⊢
  case i8 | i16 | i32 => split <;> omega
  all_goals omega

@[simp] theorem length_decFields (fmt : List Prim) (B : List Byte) : (decFields fmt B).length = fmt.length := by
  induction fmt generalizing B with
  | nil => rfl
  | cons t ts ih => simp [decFields, ih]

theorem fieldsInDomain_decFields {fmt : List Prim} {B : List Byte} (h : B.length = fmtWidth fmt) :
    fieldsInDomain fmt (decFields fmt B) = true := by
  induction fmt generalizing B with
  | nil => rfl
  | cons t ts ih =>
    rw [fmtWidth] at h
    have hfield := inDomain_decField t (B := B.take t.width) (by simp; omega)
    have hrest := ih (B := B.drop t.width) (by simp; omega)
    simp [decFields, fieldsInDomain, hfield, hrest]

/-- A decoded value is of the shape and domains of its format (30_encoding.md R117). -/
theorem fits_decValue {fmt : List Prim} {B : List Byte} (hne : fmt ≠ []) (h : B.length = fmtWidth fmt) :
    fits fmt (decValue fmt B) = true := by
  match fmt, hne with
  | [t], _ =>
    have hfield := inDomain_decField t (B := B) (by simpa [fmtWidth] using h)
    simp [fits, decValue, shapeOk, Value.fields, fieldsInDomain, hfield]
  | t :: u :: ts, _ =>
    have hfields := fieldsInDomain_decFields h
    simp [fits, decValue, shapeOk, Value.fields, hfields]

/-- Writes of values of their descriptors' formats (10_state.md R42, R43). -/
def WritesFit (rm : RegMap) (ws : List (Nat × Value)) : Prop :=
  ∀ w ∈ ws, ∀ d, rm.find w.1 = some d → fits d.fmt w.2 = true

/-- The pairs of a parsed payload are of their formats (41_codec.md R232). -/
theorem writesFit_of_parseFuel {rm : RegMap} (hfmt : ∀ idx d, rm.find idx = some d → d.fmt ≠ []) {fuel : Nat}
    {P : List Byte} {ws : List (Nat × Value)} (h : parseFuel rm fuel P = some ws) : WritesFit rm ws := by
  induction fuel generalizing P ws with
  | zero =>
    cases P with
    | nil => cases h; simp [WritesFit]
    | cons b rest => cases h
  | succ fuel ih =>
    cases P with
    | nil => cases h; simp [WritesFit]
    | cons b rest =>
      unfold parseFuel at h
      split at h
      · cases h
      · rename_i d hd
        split at h
        · cases h
        · rename_i hlen
          split at h
          · cases h
          · rename_i ps hps
            cases h
            have hwidth : (rest.take d.width).length = fmtWidth d.fmt := by
              have : d.width = fmtWidth d.fmt := rfl
              simp; omega
            intro w hw d' hd'
            obtain rfl | hw := List.mem_cons.mp hw
            · cases hd.symm.trans hd'
              exact fits_decValue (hfmt _ d hd) hwidth
            · exact ih hps w hw d' hd'

/-- A reply that is decoded names one of the 256 slots and gives values of their formats (41_codec.md R231, R232). -/
theorem slot_lt_and_writesFit_of_classifyReply {rm : RegMap} (hfmt : ∀ idx d, rm.find idx = some d → d.fmt ≠ [])
    {n : Nat} {L : List Byte} {slot : Nat} {ws : List (Nat × Value)} (h : classifyReply rm n L = .decoded slot ws) :
    slot < 256 ∧ WritesFit rm ws := by
  unfold classifyReply at h
  split at h
  · cases h
  · split at h
    · cases h
    · split at h
      · cases h
      · split at h
        · rename_i ws' hparse
          cases h
          exact ⟨(frameByte L 1).isLt, writesFit_of_parseFuel hfmt hparse⟩
        · cases h

/-- The pairs a write has checked are of their formats (42_bus_master.md R255, R262). -/
theorem writesFit_mirrorWrites {p : Params} {pairs : List (Int × Value)}
    (h : ∀ q ∈ pairs, checkPair p q.1 q.2 = none) : WritesFit p.regmap (mirrorWrites pairs) := by
  intro w hw d hd
  obtain ⟨q, hq, rfl⟩ := List.mem_map.mp hw
  obtain ⟨d', hd', hfit, -⟩ := (checkPair_eq_none_iff p q.1 q.2).mp (h q hq)
  cases (RegMap.findInt_eq_some_iff.mp hd').2.symm.trans hd
  exact hfit

/-! ## The invariant of the table under each operation on it -/

theorem TableInv.congr {s t : State} (h : TableInv s) (hc : t.cfg = s.cfg) (hd : t.dt = s.dt) : TableInv t := by
  unfold TableInv
  rw [hc, hd]
  exact h

theorem TableInv.writeMirror {s : State} (h : TableInv s) {slot : Nat} (hs : slot < bcast) {ws : List (Nat × Value)}
    (hv : WritesFit s.cfg.regmap ws) : TableInv (s.writeMirror slot ws) := by
  obtain ⟨hcfg, hcells, hbelow, hcrc⟩ := h
  exact ⟨hcfg, cellsWf_writeAll hv hcells, below_writeAll hs ws hbelow, notListed_writeAll ws hcrc⟩

/-- A fresh mirror of a byte's id keeps the canonical form, and lists no cell of CRCValue (10_state.md R45, R64). -/
theorem cellsWf_and_notListed_install {s : State} (h : TableInv s) (slot : Nat) {id : Nat} (hid : id ≤ 255) (fam : Byte) :
    cellsWf s.cfg (s.install slot id fam).dt = true
      ∧ ∀ c ∈ (s.install slot id fam).dt, c.1 % 256 ≠ s.cfg.regmap.crcValue := by
  obtain ⟨hcfg, hcells, -, hcrc⟩ := h
  have hheader : ∀ i, i ≤ 5 → ∀ d, s.cfg.regmap.find i = some d → d.fmt = [.u8] :=
    fun _ hi _ hd => Params.header_fmt_of_find hcfg hi hd
  exact ⟨cellsWf_installFresh hcells hid (hheader _ (by decide)) (hheader _ (by decide)),
    notListed_installFresh hcrc (Params.crcValue_not_header hcfg (by decide))
      (Params.crcValue_not_header hcfg (by decide))⟩

theorem TableInv.install {s : State} (h : TableInv s) {slot id : Nat} (hs : slot < bcast) (hid : id ≤ 255) (fam : Byte) :
    TableInv (s.install slot id fam) := by
  obtain ⟨hcells, hcrc⟩ := cellsWf_and_notListed_install h slot hid fam
  obtain ⟨hcfg, -, hbelow, -⟩ := h
  exact ⟨hcfg, hcells, below_installFresh hbelow hs, hcrc⟩

/-- The sentinel may be installed in slot 255 too (42_bus_master.md R252). -/
theorem TableInv.installSentinel {s : State} (h : TableInv s) (slot : Nat) : TableInv (s.installSentinel slot) := by
  obtain ⟨hcells, hcrc⟩ := cellsWf_and_notListed_install h slot (id := bcast) (by decide) s.cfg.sentinelFamily
  obtain ⟨hcfg, -, hbelow, -⟩ := h
  exact ⟨hcfg, hcells, fun c hc => hbelow c (mem_of_mem_installSentinel c hc), hcrc⟩

theorem TableInv.commit {s : State} (h : TableInv s) {slot : Nat} (hs : slot < 256) {ws : List (Nat × Value)}
    (hv : WritesFit s.cfg.regmap ws) : TableInv (s.commit slot ws) := by
  unfold State.commit
  split
  · exact h
  · exact h.writeMirror (by unfold bcast at *; omega) hv

theorem TableInv.preWrite {s : State} (h : TableInv s) {id : Nat} (hid : id ≤ 255) {pairs : List (Int × Value)}
    (hp : ∀ q ∈ pairs, checkPair s.cfg q.1 q.2 = none) : TableInv (s.preWrite id pairs) := by
  unfold State.preWrite
  split
  · exact h
  · exact h.writeMirror (by unfold bcast at *; omega) (writesFit_mirrorWrites hp)

theorem TableInv.request {s : State} (h : TableInv s) (t : Byte) (c : Command) (payload : List Byte) (ack : Nat) :
    TableInv ((s.setPhase .encode).encode t c payload ack).send := h.congr (by simp) (by simp)

theorem TableInv.requestHdr {s : State} (h : TableInv s) (t : Nat) (c : Command) (second : Bool) :
    TableInv (s.requestHdr t c second) := h.request ..

theorem TableInv.requestWrite {s : State} (h : TableInv s) (t : Nat) (pairs : List (Int × Value)) (ack : Bool) :
    TableInv (s.requestWrite t pairs ack) := h.request ..

theorem TableInv.requestRead {s : State} (h : TableInv s) (t : Nat) (indices : List Int) :
    TableInv (s.requestRead t indices) := h.request ..

/-- The acknowledgment protocol writes a mirror only by a decode, and what it decodes is of its format (42_bus_master.md
R280). -/
theorem TableInv.ackProtocol {s : State} (h : TableInv s) : TableInv s.ackProtocol.1 := by
  have hread : TableInv (s.readReply s.ackSize).checkCrc := h.congr rfl rfl
  have hdecode : TableInv ((s.readReply s.ackSize).checkCrc.setPhase .decode) := hread.congr rfl rfl
  rw [State.ackProtocol_eq]
  cases hr : classifyReply s.cfg.regmap s.ackSize (s.answer s.ackSize) with
  | short => exact h.congr rfl rfl
  | badCrc | plain => exact hread
  | framing => exact hdecode
  | decoded slot ws =>
    obtain ⟨hcfg, -⟩ := h
    obtain ⟨hslot, hfit⟩ := slot_lt_and_writesFit_of_classifyReply (fun _ _ hd => Params.fmt_ne_nil hcfg hd) hr
    exact hdecode.commit hslot hfit

/-! ## The invariant of the table under each body -/

theorem TableInv.bodySetVariables {s : State} (h : TableInv s) {id : Int} {pairs : List (Int × Value)}
    (hc : checkSetVariables s id pairs = none) (ack : Bool) :
    TableInv (bodySetVariables id.toNat pairs ack s).1 := by
  obtain ⟨h0, h255, -, -, hpairs, -⟩ := (checkSetVariables_eq_none_iff s id pairs).mp hc
  have hsent : TableInv ((s.preWrite id.toNat pairs).requestWrite id.toNat pairs ack) :=
    (h.preWrite (by omega) hpairs).requestWrite ..
  unfold Machine.bodySetVariables
  split
  · rw [valuesResult_state]
    exact hsent.ackProtocol
  · exact hsent

theorem TableInv.bodySetter {s : State} (h : TableInv s) {k : ModuleKind} {id m : Int} {range : Option ErrorCode}
    {v : Value} (hc : checkSetter s k id m range v = none) : TableInv (bodySetter k id m v s).1 := by
  obtain ⟨-, -, -, -, hset⟩ := (checkSetter_eq_none_iff s k id m range v).mp hc
  exact h.bodySetVariables hset false

theorem TableInv.bodyGetVariables {s : State} (h : TableInv s) (id : Nat) (indices : List Int) :
    TableInv (bodyGetVariables id indices s).1 := by
  rw [Machine.bodyGetVariables, valuesResult_state]
  exact (h.requestRead ..).ackProtocol

theorem TableInv.bodyAcked {s : State} (h : TableInv s) (id : Nat) (c : Command) : TableInv (bodyAcked id c s).1 :=
  (h.requestHdr ..).ackProtocol

/-- What it means that the checks of `update_driver_baudrate` pass (42_bus_master.md R321). -/
theorem checkDriverBaud_eq_none_iff (s : State) (id baud : Int) :
    checkDriverBaud s id baud = none
      ↔ 0 ≤ id ∧ id ≤ 254 ∧ s.attached id.toNat = true ∧ checkBaud baud = none
        ∧ checkPair s.cfg s.cfg.regmap.baudRate (.scalar baud) = none ∧ s.portOpen = true := by
  simp only [checkDriverBaud, firstError_eq_none_iff, List.mem_cons, forall_eq_or_imp, List.not_mem_nil, false_imp_iff,
    implies_true, and_true, checkId_eq_none_iff, checkAttached, checkPort, failWhen_eq_none_iff, Bool.not_eq_false',
    Bool.false_eq_true, imp_false, and_assoc]
  constructor
  · rintro ⟨h0, h1, h2, hrest⟩
    exact ⟨h0, by omega, hrest⟩
  · rintro ⟨h0, h1, hrest⟩
    exact ⟨h0, by omega, by omega, hrest⟩

theorem TableInv.bodyDriverBaud {s : State} (h : TableInv s) {id baud : Int} (hc : checkDriverBaud s id baud = none) :
    TableInv (bodyDriverBaud id.toNat baud s).1 := by
  obtain ⟨h0, h254, -, -, hpair, -⟩ := (checkDriverBaud_eq_none_iff s id baud).mp hc
  have hfit : WritesFit s.cfg.regmap [(s.cfg.regmap.baudRate, .scalar baud)] :=
    writesFit_mirrorWrites (pairs := [((s.cfg.regmap.baudRate : Int), .scalar baud)]) (by simpa using hpair)
  have hwritten := h.writeMirror (slot := id.toNat) (by unfold bcast; omega) hfit
  exact ((hwritten.requestWrite ..).requestHdr ..).requestHdr ..

theorem TableInv.attach {s : State} (h : TableInv s) {id family : Int} (hc : checkAttach id family = none) :
    TableInv (s.install id.toNat id.toNat (BitVec.ofInt 8 family)) := by
  simp only [checkAttach, firstError_eq_none_iff, List.mem_cons, forall_eq_or_imp, checkId_eq_none_iff] at hc
  obtain ⟨⟨h0, h255, hne⟩, -⟩ := hc
  have hlt : id ≠ 255 := fun e => Bool.false_ne_true (hne e)
  exact h.install (by unfold bcast; omega) (by omega) _

/-- A round of `scan` leaves a fresh mirror or the sentinel in its slot (42_bus_master.md R300). -/
theorem TableInv.scanProbe {s : State} (h : TableInv s) {id : Nat} (hid : id < bcast) : TableInv (scanProbe id s).1 := by
  have hread : TableInv ((s.install id id s.cfg.scanFamily).requestHdr id .ping false).ackProtocol.1 :=
    ((h.install hid (by unfold bcast at hid; omega) _).requestHdr ..).ackProtocol
  unfold Machine.scanProbe
  split
  · exact hread
  · exact hread.installSentinel id

theorem TableInv.scanLoop {s : State} (h : TableInv s) {ids : List Nat} (hids : ∀ id ∈ ids, id < bcast) :
    TableInv (scanLoop ids s).1 := by
  induction ids generalizing s with
  | nil => exact h
  | cons id ids ih =>
    obtain ⟨hid, hids⟩ := List.forall_mem_cons.mp hids
    exact ih (h.scanProbe hid) hids

theorem lt_bcast_of_mem_scanIds {id : Nat} (h : id ∈ scanIds) : id < bcast := List.mem_range.mp h

/-- The table's invariant lives in the configuration and the mirrors alone: the bodies keep it whose mirrors are kept, and the
others by the lemmas above. -/
theorem TableInv.hostBody {s : State} (h : TableInv s) (p : Params) {i : Instr} (hc : hostCheck i s = none) :
    TableInv (hostBody p i s).1 := by
  cases i
  case attach => exact h.attach hc
  case detach id => exact h.installSentinel id.toNat
  case setVariables id pairs ack => exact h.bodySetVariables hc ack
  case setBuzzer | setServo | setRgb => exact h.bodySetter hc
  case updateDriverBaudrate => exact h.bodyDriverBaud hc
  case ping => exact h.bodyAcked ..
  case scan =>
    have hloop := TableInv.scanLoop (s := s.selectTimeout .scan) (h.congr rfl rfl) fun _ => lt_bcast_of_mem_scanIds
    rw [hostBody_scan]
    exact hloop.congr (by simp) (by simp)
  case eepromWrite id ack =>
    cases ack
    · exact h.requestHdr ..
    · exact h.bodyAcked ..
  case getVariables | getDriverInfo | getButton | getLight | getJoystick | getDistance | getQtr | getPotentiometer
      | getImu => exact h.bodyGetVariables ..
  all_goals exact h.congr (hostBody_continues p _ s).cfg (by simp [Machine.hostBody])

theorem TableInv.exec {i : Instr} {s t : State} (h : TableInv s) (he : exec i s = .next t) : TableInv t := by
  cases hreq : hostRequest i with
  | none =>
    have hcfg : t.cfg = s.cfg := (engineRegistersHaveOneWriter s t i he).1
    exact h.congr hcfg (dt_of_exec_internal hreq he)
  | some req =>
    have haccept : TableInv (s.accept (some req)) := h.congr rfl rfl
    obtain ⟨e, rfl⟩ | ⟨hc, r, rfl⟩ := exec_host_cases hreq he
    · exact h.congr rfl rfl
    · exact (haccept.hostBody s.cfg hc).congr rfl rfl

/-- CRCValue reads its reset value in every slot (10_state.md R64, log 22). -/
theorem TableInv.read_crcValue {s : State} (h : TableInv s) {slot : Nat} (hs : slot < 256) :
    s.read slot s.cfg.regmap.crcValue = (s.cfg.regmap.find s.cfg.regmap.crcValue).map (·.resetValue) := by
  obtain ⟨hcfg, -, -, hcrc⟩ := h
  have h1 := Params.crcValue_not_header hcfg (i := 1) (by decide)
  have h2 := Params.crcValue_not_header hcfg (i := 2) (by decide)
  rw [State.read, readCells_of_not_listed hs (Params.crcValue_lt hcfg) hcrc]
  refine Option.map_congr fun d hd => ?_
  rw [unlistedValue_of_find hd, if_neg h1.symm, if_neg h2.symm]

/-- Settles O58: `TableInv` is kept by every instruction (`TableInv.exec`), and so by every step. -/
theorem stepKeepsTheTableInvariant : Obligations.StepKeepsTheTableInvariant := by
  intro s t hs h
  have ht : TableInv t :=
    step_preserves (fun _ _ _ h => h.congr rfl rfl) (fun _ _ _ h he => h.exec he) (fun _ _ h => h.congr rfl rfl) hs h
  exact ⟨ht, fun _ hslot => ht.read_crcValue hslot⟩

end Sys2Proof.Machine
end

-- ==== The engine registers and the waiting engine (10_state.md) ====
section
/-! PROOFS. The registers stay legal through every body, of which only `update_master_baudrate` and `scan` write one other than
`ack_size`; when a step waits or refuses; and from these O24 and O59. -/

namespace Sys2Proof.Machine

/-! ## When a step waits or refuses -/

/-- Settles O24, by what is next at the ports (`serveNext_none`, `serveNext_host`, `serveNext_internal`). -/
theorem stepOtherwiseWaitsOrRefuses : Obligations.StepOtherwiseWaitsOrRefuses := by
  intro s
  refine ⟨fun hw => ?_, fun hw hi hp => ?_, fun hw hi hp hphase => ?_, fun b rest hw hi => ?_⟩
  · exact if_neg (by simp [hw])
  · exact (step_of_wf hw).trans (serveNext_none hi hp)
  · obtain ⟨req, rest, hcons⟩ := List.exists_cons_of_ne_nil hp
    rw [step_of_wf hw, serveNext_host hi hcons, if_neg hphase]
  · rw [step_of_wf hw, serveNext_internal hi]
    rfl

/-! ## The expected acknowledgment size -/

theorem State.requestHdr_ackSize_le (s : State) (t : Nat) (c : Command) (second : Bool) :
    (s.requestHdr t c second).ackSize ≤ maxFrame := by
  have hle := hdrAck_le second c
  rw [State.requestHdr_ackSize]
  unfold maxFrame
  omega

theorem bodySetVariables_ackSize_le {s : State} {id : Int} {pairs : List (Int × Value)}
    (hc : checkSetVariables s id pairs = none) (ack : Bool) :
    (bodySetVariables id.toNat pairs ack s).1.ackSize ≤ maxFrame := by
  obtain ⟨-, -, -, -, hpairs, hlen, -⟩ := (checkSetVariables_eq_none_iff s id pairs).mp hc
  have henc : ∀ q ∈ pairs, s.cfg.regmap.encodable q.1 q.2 = true := fun q hq => by
    obtain ⟨d, hd, hfit, -⟩ := (checkPair_eq_none_iff s.cfg q.1 q.2).mp (hpairs q hq)
    simp [RegMap.encodable, hd, hfit]
  have hcfg : (s.preWrite id.toNat pairs).cfg = s.cfg := (engineKept_preWrite s id.toNat pairs).cfg
  have hsent : ((s.preWrite id.toNat pairs).requestWrite id.toNat pairs ack).ackSize ≤ maxFrame := by
    simpa [State.requestWrite_eq, hcfg] using writeAck_le henc hlen ack
  unfold bodySetVariables
  split
  · simpa using hsent
  · exact hsent

theorem bodySetter_ackSize_le {s : State} {k : ModuleKind} {id m : Int} {range : Option ErrorCode} {v : Value}
    (hc : checkSetter s k id m range v = none) : (bodySetter k id m v s).1.ackSize ≤ maxFrame := by
  obtain ⟨-, -, -, -, hset⟩ := (checkSetter_eq_none_iff s k id m range v).mp hc
  exact bodySetVariables_ackSize_le hset false

theorem bodyGetVariables_ackSize_le {s : State} {id : Int} {indices : List Int}
    (hc : checkGetVariables s id indices = none) : (bodyGetVariables id.toNat indices s).1.ackSize ≤ maxFrame := by
  obtain ⟨-, -, -, -, -, -, hlen, -⟩ := (checkGetVariables_eq_none_iff s id indices).mp hc
  have hack : readAckLen s.cfg.regmap indices ≤ maxFrame := hlen
  simpa [bodyGetVariables, State.requestRead_eq] using hack

theorem bodyGetter_ackSize_le {s : State} {k : ModuleKind} {id m : Int} (post : Value → Value)
    (hc : checkGetter s k id m = none) : (bodyGetter k id m post s).1.ackSize ≤ maxFrame := by
  simp only [checkGetter, firstError_eq_none_iff, List.mem_cons, forall_eq_or_imp] at hc
  obtain ⟨-, hget, -⟩ := hc
  exact bodyGetVariables_ackSize_le hget

theorem bodyAcked_ackSize_le (id : Nat) (c : Command) (s : State) : (bodyAcked id c s).1.ackSize ≤ maxFrame := by
  simpa [bodyAcked] using s.requestHdr_ackSize_le id c false

theorem scanProbe_ackSize_le (id : Nat) (s : State) : (scanProbe id s).1.ackSize ≤ maxFrame := by
  have hle := (s.install id id s.cfg.scanFamily).requestHdr_ackSize_le id .ping false
  unfold scanProbe
  split <;> simpa using hle

theorem scanLoop_ackSize_le {ids : List Nat} {s : State} (h : s.ackSize ≤ maxFrame) :
    (scanLoop ids s).1.ackSize ≤ maxFrame := by
  induction ids generalizing s with
  | nil => exact h
  | cons id ids ih => exact ih (scanProbe_ackSize_le id s)

theorem moduleScanReply_ackSize (id : Nat) (s : State) : (moduleScanReply id s).ackSize = modscanResp := by
  simp [moduleScanReply, hdrAck]

theorem moduleScanResult_ackSize (s : State) : (moduleScanResult s).1.ackSize = s.ackSize := by
  unfold moduleScanResult
  split
  · rfl
  · split <;> simp

/-- What an operation expects in reply fits a frame, once its checks have passed (10_state.md R51, 41_codec.md R215). -/
theorem hostBody_ackSize_le (p : Params) {i : Instr} {s : State} (hc : hostCheck i s = none) (h : s.ackSize ≤ maxFrame) :
    (hostBody p i s).1.ackSize ≤ maxFrame := by
  cases i
  case setVariables id pairs ack => exact bodySetVariables_ackSize_le hc ack
  case setBuzzer | setServo | setRgb => exact bodySetter_ackSize_le hc
  case getVariables | getDriverInfo => exact bodyGetVariables_ackSize_le hc
  case getButton | getLight | getJoystick | getDistance | getQtr | getPotentiometer | getImu =>
    exact bodyGetter_ackSize_le _ hc
  case setVariablesSync => exact Nat.zero_le _
  case ping => exact bodyAcked_ackSize_le ..
  case reboot | hardReset | tune | resetEncoder | updateDriverBaudrate => exact State.requestHdr_ackSize_le ..
  case enterBootloader id =>
    rw [hostBody_enterBootloader, State.closePort_ackSize]
    exact State.requestHdr_ackSize_le ..
  case eepromWrite id ack =>
    cases ack
    · exact State.requestHdr_ackSize_le ..
    · exact bodyAcked_ackSize_le ..
  case scan =>
    have hloop := scanLoop_ackSize_le (ids := scanIds) (s := s.selectTimeout .scan) h
    rw [hostBody_scan]
    simpa using hloop
  case scanModules id =>
    have hack : (moduleScanResult (moduleScanReply id.toNat s)).1.ackSize = modscanResp := by
      rw [moduleScanResult_ackSize, moduleScanReply_ackSize]
    exact hack.trans_le (by decide)
  all_goals exact h

/-! ## The ids a scan finds -/

theorem scannedOk_of_pairwise {l : List Nat} (h : l.Pairwise (· < ·)) (hl : ∀ a ∈ l, a < bcast) : scannedOk l = true := by
  induction l with
  | nil => rfl
  | cons a l ih =>
    cases l with
    | nil => simpa [scannedOk] using hl
    | cons b l =>
      rw [List.pairwise_cons] at h
      have hrest := ih h.2 fun c hc => hl c (List.mem_cons_of_mem _ hc)
      simp [scannedOk, hrest, h.1 b List.mem_cons_self]

/-- A scan finds some of the ids it probes, in their order (42_bus_master.md R300). -/
theorem scanLoop_found_sublist (ids : List Nat) (s : State) : (scanLoop ids s).2.Sublist ids := by
  induction ids generalizing s with
  | nil => exact List.Sublist.refl _
  | cons id ids ih =>
    unfold scanLoop
    dsimp only
    split
    · exact (ih _).cons_cons id
    · exact (ih _).cons id

/-- The ids found are strictly increasing unicast ids (10_state.md R50). -/
theorem scannedOk_scanLoop (s : State) : scannedOk (scanLoop scanIds s).2 = true := by
  have hsub := scanLoop_found_sublist scanIds s
  exact scannedOk_of_pairwise (List.pairwise_lt_range.sublist hsub) fun _ hid => lt_bcast_of_mem_scanIds (hsub.subset hid)

/-! ## The engine's invariant -/

/-- The engine registers are legal, whatever the phase (10_state.md R48 to R51, R54). -/
def RegistersLegal (s : State) : Prop :=
  baudMin ≤ s.baudRate ∧ s.baudRate ≤ baudMax ∧ s.settleDelay = 30 / (s.baudRate : Rat)
  ∧ scannedOk s.lastScanned = true ∧ s.ackSize ≤ maxFrame ∧ s.timeoutSel = .normal

theorem engineInv_iff (s : State) : EngineInv s ↔ RegistersLegal s ∧ s.phase = .idle := by
  simp only [EngineInv, RegistersLegal, and_assoc]

/-- Registers that are kept stay legal with a legal acknowledgment size. -/
theorem EngineKept.registersLegal {s t : State} (hk : EngineKept s t) (ha : t.ackSize ≤ maxFrame)
    (h : RegistersLegal s) : RegistersLegal t := by
  obtain ⟨hmin, hmax, hsettle, hscanned, -, htimeout⟩ := h
  unfold RegistersLegal
  rw [hk.baudRate, hk.settleDelay, hk.lastScanned, hk.timeoutSel]
  exact ⟨hmin, hmax, hsettle, hscanned, ha, htimeout⟩

/-- An operation whose checks pass leaves the registers legal: `update_master_baudrate` writes the rate it has checked and its
delay, `scan` the ids it found, and the other bodies `ack_size` at most. -/
theorem hostBody_registersLegal (p : Params) {i : Instr} {s : State} (hc : hostCheck i s = none) (h : RegistersLegal s) :
    RegistersLegal (hostBody p i s).1 := by
  have hack : (hostBody p i s).1.ackSize ≤ maxFrame := by
    obtain ⟨-, -, -, -, hbefore, -⟩ := h
    exact hostBody_ackSize_le p hc hbefore
  obtain hkept | rfl | ⟨baud, rfl⟩ | ⟨id, rfl⟩ := hostBody_cases p i s
  · exact hkept.registersLegal hack h
  · obtain ⟨hmin, hmax, hsettle, -⟩ := h
    have hloop := engineKept_scanLoop scanIds (s.selectTimeout .scan)
    rw [hostBody_scan] at hack ⊢
    refine ⟨?_, ?_, ?_, scannedOk_scanLoop _, hack, rfl⟩ <;> simpa [hloop.baudRate, hloop.settleDelay]
  · obtain ⟨-, -, -, hscanned, -, htimeout⟩ := h
    obtain ⟨hmin, hmax⟩ := (checkBaud_eq_none_iff baud).mp hc
    exact ⟨show baudMin ≤ baud.toNat by unfold baudMin; omega, show baud.toNat ≤ baudMax by unfold baudMax; omega,
      settleOf_eq baud.toNat, hscanned, hack, htimeout⟩
  · have hsent := (engineKept_requestHdr s id.toNat .blJump false).registersLegal (s.requestHdr_ackSize_le ..) h
    rw [hostBody_enterBootloader]
    simpa [RegistersLegal] using hsent

theorem EngineInv.exec {i : Instr} {s t : State} (h : EngineInv s) (he : exec i s = .next t) : EngineInv t := by
  rw [engineInv_iff] at h ⊢
  obtain ⟨hlegal, hidle⟩ := h
  cases hreq : hostRequest i with
  | none =>
    obtain ⟨b, c, payload, ack, hack, rfl⟩ | ⟨r, out, rfl⟩ := exec_internal_cases hreq he
    · exact ⟨(engineKept_encode ..).registersLegal hack hlegal, hidle⟩
    · exact ⟨hlegal, hidle⟩
  | some req =>
    obtain ⟨e, rfl⟩ | ⟨hc, r, rfl⟩ := exec_host_cases hreq he
    · exact ⟨hlegal, rfl⟩
    · have haccept : RegistersLegal (s.accept (some req)) := hlegal
      exact ⟨hostBody_registersLegal s.cfg hc haccept, rfl⟩

/-- Settles O59: `EngineInv` is kept by every instruction (`EngineInv.exec`), and so by every step. -/
theorem stepKeepsTheEngineInvariant : Obligations.StepKeepsTheEngineInvariant := by
  intro s t hs h
  refine step_preserves (fun _ _ _ h => h) (fun _ _ _ h he => h.exec he) (fun req u h => ?_) hs h
  rw [engineInv_iff] at h ⊢
  exact ⟨h.1, rfl⟩

end Sys2Proof.Machine
end

-- ==== The transport and the bits of memory (20_memory.md) ====
section
/-! PROOFS. What appending to a trace does to each rule of the transport discipline, the frames that keep it, and that a host
operation whose checks pass sends no other and sends on an open port; the bits of a little-endian integer; and from these O42
and O60. -/

namespace Sys2Proof.Machine

/-! ## The discipline of an appended trace -/

theorem framesOk_append (cm : CommandMap) (l m : List Event) :
    framesOk cm (l ++ m) = (framesOk cm l && framesOk cm m) := by
  induction l with
  | nil => rfl
  | cons e l ih => cases e <;> simp [framesOk, ih, Bool.and_assoc]

/-- Only a Tx has a delay to settle (20_memory.md R98). -/
theorem settled_cons {e : Event} (h : ∀ F, e ≠ .tx F) (l : List Event) : settled (e :: l) = settled l := by
  cases e with
  | tx F => exact absurd rfl (h F)
  | _ => rfl

/-- A settled trace does not end in a Tx, so what is appended settles by itself (20_memory.md R98). -/
theorem settled_append {l : List Event} (h : settled l = true) (m : List Event) : settled (l ++ m) = settled m := by
  induction l using settled.induct with
  | case1 => rfl
  | case2 F b rest ih => exact ih h
  | case3 F rest hnot => simp [settled] at h
  | case4 e rest _ htx ih =>
    rw [settled_cons htx] at h
    rw [List.cons_append, settled_cons htx]
    exact ih h

theorem portReplay_append (o : Bool) (l m : List Event) :
    portReplay o (l ++ m) = (portReplay o l).bind fun o' => portReplay o' m := by
  induction l generalizing o with
  | nil => rfl
  | cons e l ih => cases e <;> cases o <;> simp [portReplay, ih]

/-- The discipline goes on along an operation whose own events keep it. -/
theorem TraceInv.append {s t : State} (h : TraceInv s) {es : List Event} (hcfg : t.cfg = s.cfg)
    (htrace : t.trace = s.trace ++ es) (hframes : framesOk s.cfg.cmd es = true) (hsettled : settled es = true)
    (hport : portReplay s.portOpen es = some t.portOpen) : TraceInv t := by
  obtain ⟨hf, hs, hp⟩ := h
  unfold TraceInv
  rw [hcfg, htrace, framesOk_append, settled_append hs, portReplay_append, hp]
  exact ⟨by simp [hf, hframes], hsettled, hport⟩

theorem TraceInv.congr {s t : State} (h : TraceInv s) (hcfg : t.cfg = s.cfg) (htrace : t.trace = s.trace)
    (hport : t.portOpen = s.portOpen) : TraceInv t := by
  unfold TraceInv
  rw [hcfg, htrace, hport]
  exact h

/-- The discipline with the port open: where an operation that transmits goes on from (42_bus_master.md R256). -/
structure OpenTrace (s : State) : Prop where
  inv : TraceInv s
  portOpen : s.portOpen = true

theorem OpenTrace.append {s t : State} (h : OpenTrace s) {es : List Event} (hcfg : t.cfg = s.cfg)
    (hopen : t.portOpen = s.portOpen) (htrace : t.trace = s.trace ++ es) (hframes : framesOk s.cfg.cmd es = true)
    (hsettled : settled es = true) (hport : portReplay true es = some true) : OpenTrace t := by
  have ht : t.portOpen = true := hopen.trans h.portOpen
  exact ⟨h.inv.append hcfg htrace hframes hsettled (by rw [h.portOpen, ht]; exact hport), ht⟩

theorem OpenTrace.congr {s t : State} (h : OpenTrace s) (hcfg : t.cfg = s.cfg) (htrace : t.trace = s.trace)
    (hopen : t.portOpen = s.portOpen) : OpenTrace t :=
  ⟨h.inv.congr hcfg htrace hopen, hopen.trans h.portOpen⟩

/-! ## Frames that keep the discipline -/

/-- A sealed list passes the check (40_crc.md R177, R178). -/
theorem crcOk_sealFrame (B : List Byte) : crcOk (sealFrame B) = true := by
  have htrailer : leValue (leBytes 4 (crc32 B).toNat) = (crc32 B).toNat :=
    (leValue_leBytes 4 _).trans (Nat.mod_eq_of_lt (crc32 B).isLt)
  rw [sealFrame, crcOk_append B _ (length_leBytes ..), htrailer]
  exact beq_self_eq_true _

/-- A frame that fits PackageSize is sealed: its fourth byte is its length (41_codec.md R202, R205, R215). -/
theorem frameSealed_encode (s : State) (t : Byte) (c : Command) {P : List Byte} (h : P.length ≤ 245) :
    frameSealed (sealFrame (s.frameBody t c P)) = true := by
  have hheader : frameByte (sealFrame (s.frameBody t c P)) 0 = hdrByte := rfl
  have hsize : frameByte (sealFrame (s.frameBody t c P)) 3 = BitVec.ofNat 8 (6 + P.length + 4) := rfl
  have hlen : (sealFrame (s.frameBody t c P)).length = 6 + P.length + 4 := by simp [sealFrame]
  have hmin : 10 ≤ 6 + P.length + 4 := by omega
  have hmax : 6 + P.length + 4 ≤ 255 := by omega
  have hbyte : 6 + P.length + 4 < 256 := by omega
  simp [frameSealed, hheader, hsize, hlen, crcOk_sealFrame, minFrame, maxFrame, hmin, hmax, hbyte]

/-- A request of Command c may be addressed to target t (30_encoding.md R152). -/
def MayTarget (c : Command) (t : Byte) : Prop := t.toNat ≠ bcast ∨ c ∈ [.write, .writeAck, .syncWrite]

theorem mayTarget_of_lt {id : Nat} (h : id < bcast) (c : Command) : MayTarget c (BitVec.ofNat 8 id) := by
  left
  rw [BitVec.toNat_ofNat]
  unfold bcast at *
  omega

theorem broadcastOk_encode (s : State) {t : Byte} {c : Command} (P : List Byte) (h : MayTarget c t) :
    broadcastOk s.cfg.cmd (sealFrame (s.frameBody t c P)) = true := by
  have htarget : frameByte (sealFrame (s.frameBody t c P)) 1 = t := rfl
  have hcommand : frameByte (sealFrame (s.frameBody t c P)) 4 = s.cfg.cmd.byte c := rfl
  rw [broadcastOk, htarget, hcommand]
  obtain hunicast | hbroadcast := h
  · simp [hunicast]
  · simp only [List.mem_cons, List.not_mem_nil, or_false] at hbroadcast
    obtain rfl | rfl | rfl := hbroadcast <;> simp [CommandMap.byte]

/-! ## Requests that have a frame

Of the 255 bytes of the longest frame ten are header and trailer, so 245 are left for the payload (41_codec.md R215). -/

theorem length_syncGroups {rm : RegMap} {i : Int} {gs : List (Int × Value)} (h : ∀ q ∈ gs, rm.encodable i q.2 = true) :
    (syncGroups rm i gs).length = gs.length * (1 + rm.widthInt i) := by
  induction gs with
  | nil => simp [syncGroups]
  | cons q gs ih =>
    obtain ⟨hq, hgs⟩ := List.forall_mem_cons.mp h
    simp only [syncGroups, List.length_cons, List.length_append, length_encValueAt hq, ih hgs, Nat.succ_mul]
    omega

theorem length_writePayload_le {rm : RegMap} {pairs : List (Int × Value)} (h : writeEncodable rm pairs = true) :
    (writePayload rm pairs).length ≤ 245 := by
  simp only [writeEncodable, Bool.and_eq_true, List.all_eq_true, decide_eq_true_eq] at h
  obtain ⟨henc, hlen⟩ := h
  have hlen : 6 + sizeOfIndices rm (pairs.map (·.1)) + 4 ≤ 255 := hlen
  rw [length_writePayload henc]
  omega

theorem length_readPayload_le {rm : RegMap} {indices : List Int} (h : readEncodable rm indices = true) :
    (readPayload indices).length ≤ 245 := by
  simp only [readEncodable, Bool.and_eq_true, decide_eq_true_eq] at h
  obtain ⟨⟨-, hlen⟩, -⟩ := h
  have hlen : 6 + indices.length + 4 ≤ 255 := hlen
  simp only [readPayload, List.length_map]
  omega

theorem length_syncPayload_le {rm : RegMap} {i : Int} {groups : List (Int × Value)}
    (h : syncEncodable rm i groups = true) : (syncPayload rm i groups).length ≤ 245 := by
  simp only [syncEncodable, Bool.and_eq_true, List.all_eq_true, decide_eq_true_eq] at h
  obtain ⟨⟨-, hgroups⟩, hlen⟩ := h
  have hlen : 6 + 1 + groups.length * (1 + rm.widthInt i) + 4 ≤ 255 := hlen
  have hlength := length_syncGroups fun q hq => (hgroups q hq).2
  simp only [syncPayload, List.length_cons, hlength]
  omega

/-- A pair that passes its check has an encoding (42_bus_master.md R255, 30_encoding.md R116). -/
theorem encodable_of_checkPair {p : Params} {i : Int} {v : Value} (h : checkPair p i v = none) :
    p.regmap.encodable i v = true := by
  obtain ⟨d, hd, hfit, -⟩ := (checkPair_eq_none_iff p i v).mp h
  simp [RegMap.encodable, hd, hfit]

/-- A write that passes its checks has a frame (41_codec.md R215). -/
theorem writeEncodable_of_checkSetVariables {s : State} {id : Int} {pairs : List (Int × Value)}
    (h : checkSetVariables s id pairs = none) : writeEncodable s.cfg.regmap pairs = true := by
  obtain ⟨-, -, -, -, hpairs, hlen, -⟩ := (checkSetVariables_eq_none_iff s id pairs).mp h
  have henc : ∀ q ∈ pairs, s.cfg.regmap.encodable q.1 q.2 = true := fun q hq => encodable_of_checkPair (hpairs q hq)
  simpa [writeEncodable, maxFrame, hlen] using fun i v => henc (i, v)

/-- A read that passes its checks has a frame (41_codec.md R215). -/
theorem readEncodable_of_checkGetVariables {s : State} {id : Int} {indices : List Int}
    (h : checkGetVariables s id indices = none) : readEncodable s.cfg.regmap indices = true := by
  obtain ⟨-, -, -, -, hknown, hlen, hack, -⟩ := (checkGetVariables_eq_none_iff s id indices).mp h
  simpa [readEncodable, maxFrame, hlen, hack] using hknown

/-- A synchronized write that passes its checks has a frame (41_codec.md R215). -/
theorem syncEncodable_of_checkSetVariablesSync {s : State} {index : Int} {groups : List (Int × Value)}
    (h : checkSetVariablesSync s index groups = none) : syncEncodable s.cfg.regmap index groups = true := by
  obtain ⟨hne, hgroups, hlen, -⟩ := (checkSetVariablesSync_eq_none_iff s index groups).mp h
  obtain ⟨q, hq⟩ := List.exists_mem_of_ne_nil groups hne
  obtain ⟨d, hd, -⟩ := (checkPair_eq_none_iff s.cfg index q.2).mp (hgroups q hq).2.2
  have hall : ∀ q ∈ groups, 0 ≤ q.1 ∧ q.1 ≤ 255 ∧ s.cfg.regmap.encodable index q.2 = true := fun q hq => by
    obtain ⟨h0, h254, hpair⟩ := hgroups q hq
    exact ⟨h0, by omega, encodable_of_checkPair hpair⟩
  simp only [syncEncodable, Bool.and_eq_true, List.all_eq_true, decide_eq_true_eq, and_assoc]
  exact ⟨by simp [hd], hall, hlen⟩

/-- The BaudRate write of `update_driver_baudrate` has a frame: BaudRate is four bytes wide (10_state.md R38). -/
theorem writeEncodable_of_checkDriverBaud {s : State} (hw : s.cfg.wf = true) {id baud : Int}
    (h : checkDriverBaud s id baud = none) :
    writeEncodable s.cfg.regmap [((s.cfg.regmap.baudRate : Int), .scalar baud)] = true := by
  obtain ⟨-, -, -, -, hpair, -⟩ := (checkDriverBaud_eq_none_iff s id baud).mp h
  have henc := encodable_of_checkPair hpair
  obtain ⟨d, hd, hfmt⟩ := Params.baudRate_fmt hw
  have hwidth : s.cfg.regmap.widthInt s.cfg.regmap.baudRate = 4 := by
    obtain hf | hf := hfmt <;> simp [RegMap.widthInt, hd, Descriptor.width, hf, fmtWidth, Prim.width]
  simp [writeEncodable, henc, writeLen, sizeOfIndices, hwidth, hdrLen, crcLen, maxFrame]

/-! ## The discipline under each shared operation -/

/-- A request sends one sealed frame, keeps the broadcast restriction, and settles (42_bus_master.md R257). -/
theorem OpenTrace.request {s : State} (h : OpenTrace s) {t : Byte} {c : Command} {P : List Byte} (hlen : P.length ≤ 245)
    (hto : MayTarget c t) (ack : Nat) : OpenTrace ((s.setPhase .encode).encode t c P ack).send := by
  have hframe : framesOk s.cfg.cmd [.tx (sealFrame (s.frameBody t c P)), .settle s.baudRate] = true := by
    simp [framesOk, frameSealed_encode s t c hlen, broadcastOk_encode s P hto]
  exact h.append (by simp) (by simp) (by simp) hframe rfl rfl

theorem OpenTrace.requestHdr {s : State} (h : OpenTrace s) {id : Nat} (hid : id < bcast) (c : Command) (second : Bool) :
    OpenTrace (s.requestHdr id c second) := h.request (Nat.zero_le _) (mayTarget_of_lt hid c) _

theorem OpenTrace.requestWrite {s : State} (h : OpenTrace s) {pairs : List (Int × Value)}
    (henc : writeEncodable s.cfg.regmap pairs = true) (id : Nat) (ack : Bool) :
    OpenTrace (s.requestWrite id pairs ack) :=
  h.request (length_writePayload_le henc) (.inr (by cases ack <;> simp)) _

theorem OpenTrace.requestRead {s : State} (h : OpenTrace s) {id : Nat} (hid : id < bcast) {indices : List Int}
    (henc : readEncodable s.cfg.regmap indices = true) : OpenTrace (s.requestRead id indices) :=
  h.request (length_readPayload_le henc) (mayTarget_of_lt hid .read) _

theorem OpenTrace.requestSync {s : State} (h : OpenTrace s) {index : Int} {groups : List (Int × Value)}
    (henc : syncEncodable s.cfg.regmap index groups = true) : OpenTrace (s.requestSync index groups) :=
  h.request (length_syncPayload_le henc) (.inr (by simp)) _

theorem OpenTrace.readReply {s : State} (h : OpenTrace s) (n : Nat) : OpenTrace (s.readReply n) :=
  h.append (s.readReply_cfg n) (s.readReply_portOpen n) (s.readReply_trace n) rfl rfl rfl

theorem OpenTrace.ackProtocol {s : State} (h : OpenTrace s) : OpenTrace s.ackProtocol.1 :=
  h.append s.ackProtocol_cfg s.ackProtocol_portOpen s.ackProtocol_trace rfl rfl rfl

theorem OpenTrace.selectTimeout {s : State} (h : OpenTrace s) (sel : TimeoutSel) : OpenTrace (s.selectTimeout sel) :=
  h.append (s.selectTimeout_cfg sel) (s.selectTimeout_portOpen sel) (s.selectTimeout_trace sel) rfl rfl rfl

theorem OpenTrace.preWrite {s : State} (h : OpenTrace s) (id : Nat) (pairs : List (Int × Value)) :
    OpenTrace (s.preWrite id pairs) := by
  unfold State.preWrite
  split
  · exact h
  · exact h.congr rfl rfl rfl

/-- The port is closed on the trace as in the register (42_bus_master.md R275). -/
theorem OpenTrace.closePort {s : State} (h : OpenTrace s) : TraceInv s.closePort :=
  h.inv.append s.closePort_cfg s.closePort_trace rfl rfl (by rw [h.portOpen]; rfl)

/-- The reconfiguration leaves the port open, from either state of it (42_bus_master.md R320). -/
theorem TraceInv.reopenAt {s : State} (h : TraceInv s) (baud : Nat) : TraceInv (s.reopenAt baud) :=
  h.append (s.reopenAt_cfg baud) (s.reopenAt_trace baud) rfl rfl (by cases s.portOpen <;> rfl)

/-! ## The discipline under each body -/

/-- The checks of a unicast operation leave an open port and a unicast id (42_bus_master.md R253, R256). -/
theorem TraceInv.openTrace_of_checkUnicast {s : State} (h : TraceInv s) {id : Int} (hc : checkUnicast s id = none) :
    OpenTrace s ∧ id.toNat < bcast := by
  obtain ⟨h0, h254, -, hopen⟩ := (checkUnicast_eq_none_iff s id).mp hc
  exact ⟨⟨h, hopen⟩, by unfold bcast; omega⟩

theorem TraceInv.bodySetVariables {s : State} (h : TraceInv s) {id : Int} {pairs : List (Int × Value)}
    (hc : checkSetVariables s id pairs = none) (ack : Bool) :
    TraceInv (bodySetVariables id.toNat pairs ack s).1 := by
  obtain ⟨-, -, -, -, -, -, hopen⟩ := (checkSetVariables_eq_none_iff s id pairs).mp hc
  have hwritten : OpenTrace (s.preWrite id.toNat pairs) := OpenTrace.preWrite ⟨h, hopen⟩ ..
  have hcfg : (s.preWrite id.toNat pairs).cfg = s.cfg := (engineKept_preWrite s id.toNat pairs).cfg
  have hsent : OpenTrace ((s.preWrite id.toNat pairs).requestWrite id.toNat pairs ack) :=
    hwritten.requestWrite (by rw [hcfg]; exact writeEncodable_of_checkSetVariables hc) ..
  unfold Machine.bodySetVariables
  split
  · rw [valuesResult_state]
    exact hsent.ackProtocol.inv
  · exact hsent.inv

theorem TraceInv.bodySetter {s : State} (h : TraceInv s) {k : ModuleKind} {id m : Int} {range : Option ErrorCode}
    {v : Value} (hc : checkSetter s k id m range v = none) : TraceInv (bodySetter k id m v s).1 := by
  obtain ⟨-, -, -, -, hset⟩ := (checkSetter_eq_none_iff s k id m range v).mp hc
  exact h.bodySetVariables hset false

theorem TraceInv.bodyGetVariables {s : State} (h : TraceInv s) {id : Int} {indices : List Int}
    (hc : checkGetVariables s id indices = none) : TraceInv (bodyGetVariables id.toNat indices s).1 := by
  obtain ⟨h0, h254, -, -, -, -, -, hopen⟩ := (checkGetVariables_eq_none_iff s id indices).mp hc
  have hsent : OpenTrace (s.requestRead id.toNat indices) :=
    OpenTrace.requestRead ⟨h, hopen⟩ (by unfold bcast; omega) (readEncodable_of_checkGetVariables hc)
  rw [Machine.bodyGetVariables, valuesResult_state]
  exact hsent.ackProtocol.inv

theorem TraceInv.bodyGetter {s : State} (h : TraceInv s) {k : ModuleKind} {id m : Int} (post : Value → Value)
    (hc : checkGetter s k id m = none) : TraceInv (bodyGetter k id m post s).1 := by
  simp only [checkGetter, firstError_eq_none_iff, List.mem_cons, forall_eq_or_imp] at hc
  obtain ⟨-, hget, -⟩ := hc
  exact h.bodyGetVariables hget

theorem TraceInv.bodyCommand {s : State} (h : TraceInv s) {id : Int} (hc : checkUnicast s id = none) (c : Command) :
    TraceInv (bodyCommand id.toNat c s).1 := by
  obtain ⟨hs, hid⟩ := h.openTrace_of_checkUnicast hc
  exact (hs.requestHdr hid c false).inv

theorem TraceInv.bodyAcked {s : State} (h : TraceInv s) {id : Int} (hc : checkUnicast s id = none) (c : Command) :
    TraceInv (bodyAcked id.toNat c s).1 := by
  obtain ⟨hs, hid⟩ := h.openTrace_of_checkUnicast hc
  exact (hs.requestHdr hid c false).ackProtocol.inv

theorem TraceInv.bodyDriverBaud {s : State} (h : TraceInv s) (hw : s.cfg.wf = true) {id baud : Int}
    (hc : checkDriverBaud s id baud = none) : TraceInv (bodyDriverBaud id.toNat baud s).1 := by
  obtain ⟨h0, h254, -, -, -, hopen⟩ := (checkDriverBaud_eq_none_iff s id baud).mp hc
  have hid : id.toNat < bcast := by unfold bcast; omega
  have hwritten : OpenTrace (s.writeMirror id.toNat [(s.cfg.regmap.baudRate, .scalar baud)]) :=
    OpenTrace.congr ⟨h, hopen⟩ rfl rfl rfl
  have hsent := hwritten.requestWrite (writeEncodable_of_checkDriverBaud hw hc) id.toNat false
  exact ((hsent.requestHdr hid ..).requestHdr hid ..).inv

theorem OpenTrace.scanProbe {s : State} (h : OpenTrace s) {id : Nat} (hid : id < bcast) : OpenTrace (scanProbe id s).1 := by
  have hfresh : OpenTrace (s.install id id s.cfg.scanFamily) := h.congr rfl rfl rfl
  have hread := (hfresh.requestHdr hid .ping false).ackProtocol
  unfold Machine.scanProbe
  split
  · exact hread
  · exact hread.congr rfl rfl rfl

theorem OpenTrace.scanLoop {s : State} (h : OpenTrace s) {ids : List Nat} (hids : ∀ id ∈ ids, id < bcast) :
    OpenTrace (scanLoop ids s).1 := by
  induction ids generalizing s with
  | nil => exact h
  | cons id ids ih =>
    obtain ⟨hid, hids⟩ := List.forall_mem_cons.mp hids
    exact ih (h.scanProbe hid) hids

theorem TraceInv.bodyScan {s : State} (h : TraceInv s) (hc : checkPort s = none) : TraceInv (bodyScan s).1 := by
  have hs : OpenTrace s := ⟨h, by simpa [checkPort] using hc⟩
  have hloop := (hs.selectTimeout .scan).scanLoop fun _ => lt_bcast_of_mem_scanIds
  exact (hloop.selectTimeout .normal).inv.congr (State.recordScanned_cfg ..) (State.recordScanned_trace ..)
    (State.recordScanned_portOpen ..)

/-- The warm-up delay between the two issuances is no frame (42_bus_master.md R310). -/
theorem OpenTrace.moduleScanReply {s : State} (h : OpenTrace s) {id : Nat} (hid : id < bcast) :
    OpenTrace (moduleScanReply id s) := by
  have hwarm : OpenTrace ((s.requestHdr id .moduleScan false).emit (.delay .warmup)) :=
    (h.requestHdr hid .moduleScan false).append (State.emit_cfg ..) (State.emit_portOpen ..) (State.emit_trace ..)
      rfl rfl rfl
  exact (hwarm.requestHdr hid .moduleScan true).readReply modscanResp

theorem TraceInv.moduleScanResult {s : State} (h : TraceInv s) : TraceInv (moduleScanResult s).1 := by
  unfold Machine.moduleScanResult
  split
  · exact h
  · split <;> exact h.congr rfl rfl rfl

/-- A host operation whose checks pass keeps the discipline: the checks have fixed the length and the target of its frames and
the state of the port (20_memory.md R95, R98; 30_encoding.md R152). -/
theorem TraceInv.hostBody {s : State} (h : TraceInv s) (hw : s.cfg.wf = true) (p : Params) {i : Instr}
    (hc : hostCheck i s = none) : TraceInv (hostBody p i s).1 := by
  cases i
  case attach | detach => exact h.congr rfl rfl rfl
  case setVariables id pairs ack => exact h.bodySetVariables hc ack
  case setBuzzer | setServo | setRgb => exact h.bodySetter hc
  case getVariables | getDriverInfo => exact h.bodyGetVariables hc
  case getButton | getLight | getJoystick | getDistance | getQtr | getPotentiometer | getImu => exact h.bodyGetter _ hc
  case setVariablesSync index groups =>
    obtain ⟨-, -, -, hopen⟩ := (checkSetVariablesSync_eq_none_iff s index groups).mp hc
    exact (OpenTrace.requestSync ⟨h, hopen⟩ (syncEncodable_of_checkSetVariablesSync hc)).inv
  case ping => exact h.bodyAcked hc .ping
  case reboot | hardReset | tune | resetEncoder => exact h.bodyCommand hc _
  case eepromWrite id ack =>
    cases ack
    · exact h.bodyCommand hc .eepromWrite
    · exact h.bodyAcked hc .eepromWriteAck
  case enterBootloader id =>
    obtain ⟨hs, hid⟩ := h.openTrace_of_checkUnicast hc
    exact (hs.requestHdr hid .blJump false).closePort
  case scan => exact h.bodyScan hc
  case scanModules id =>
    obtain ⟨hs, hid⟩ := h.openTrace_of_checkUnicast hc
    exact (hs.moduleScanReply hid).inv.moduleScanResult
  case updateMasterBaudrate baud => exact h.reopenAt baud.toNat
  case updateDriverBaudrate => exact h.bodyDriverBaud hw hc
  all_goals exact h

theorem TraceInv.exec {i : Instr} {s t : State} (h : TraceInv s) (hw : s.cfg.wf = true) (he : exec i s = .next t) :
    TraceInv t := by
  cases hreq : hostRequest i with
  | none => obtain ⟨b, c, payload, ack, -, rfl⟩ | ⟨r, out, rfl⟩ := exec_internal_cases hreq he <;> exact h
  | some req =>
    have haccept : TraceInv (s.accept (some req)) := h
    obtain ⟨e, rfl⟩ | ⟨hc, r, rfl⟩ := exec_host_cases hreq he
    · exact h
    · exact haccept.hostBody hw s.cfg hc

/-- A step that goes on had a well-formed configuration (10_state.md R40). -/
theorem wf_of_step {s t : State} (h : step s = .next t) : s.cfg.wf = true := by
  unfold step at h
  split at h
  · assumption
  · cases h

/-- Settles O60: `TraceInv` is kept by every instruction under a well-formed configuration (`TraceInv.exec`), which every
instruction keeps too. -/
theorem stepKeepsTheTraceInvariant : Obligations.StepKeepsTheTraceInvariant := by
  intro s t hs h
  have hboth : t.cfg.wf = true ∧ TraceInv t := by
    refine step_preserves (P := fun u => u.cfg.wf = true ∧ TraceInv u) (fun _ _ _ hu => hu) (fun i u v hu he => ?_)
      (fun _ _ hu => hu) ⟨wf_of_step h, hs⟩ h
    obtain ⟨hw, htrace⟩ := hu
    have hcfg : v.cfg = u.cfg := (engineRegistersHaveOneWriter u v i he).1
    exact ⟨by rw [hcfg]; exact hw, htrace.exec hw he⟩
  exact hboth.2

/-! ## The bits of a little-endian integer -/

/-- A byte put below a number shifts its bits up by eight (20_memory.md R84). -/
theorem testBit_leValue_cons (b : Byte) (L : List Byte) (i : Nat) :
    (leValue (b :: L)).testBit i = if i < 8 then b.getLsbD i else (leValue L).testBit (i - 8) := by
  have hsplit : leValue (b :: L) = 2 ^ 8 * leValue L + b.toNat := Nat.add_comm ..
  rw [hsplit, Nat.testBit_two_pow_mul_add _ b.isLt, BitVec.testBit_toNat]

/-- Settles O42, by induction on the bytes, each of which holds the eight lowest bits left (`testBit_leValue_cons`). -/
theorem maskBitsAreBytesBits : Obligations.MaskBitsAreBytesBits := by
  intro L
  induction L with
  | nil => simp [leValue]
  | cons b L ih =>
    intro i
    rw [testBit_leValue_cons]
    split
    · rename_i hlow
      rw [Nat.div_eq_of_lt hlow, Nat.mod_eq_of_lt hlow]
      rfl
    · rename_i hhigh
      have hdiv : i / 8 = (i - 8) / 8 + 1 := by omega
      have hmod : i % 8 = (i - 8) % 8 := by omega
      rw [ih, hdiv, hmod, List.getD_cons_succ]

end Sys2Proof.Machine
end

-- ==== Fields, request frames and the ports' codes (30_encoding.md) ====
section
/-! PROOFS. Decoding inverts encoding at every level: a field and a value (O7, O8, O9), a payload and a request frame on the line
(O19), and the request of an instruction at its port (O21, O25); and the hop codes that are no operation's (O23). -/

namespace Sys2Proof.Machine

/-! ## Two's complement -/

/-- An integer of 0 .. 2^(8n)-1 is its own pattern of n bytes (00_scope.md R14). -/
theorem natCast_tc {n : Nat} {v : Int} (h0 : 0 ≤ v) (h1 : v < (2 ^ (8 * n) : Nat)) : (tc n v : Int) = v := by
  rw [tc, Int.emod_eq_of_lt h0 h1, Int.toNat_of_nonneg h0]

/-- A negative integer from -2^(8n) up is written as its sum with 2^(8n) (00_scope.md R14). -/
theorem natCast_tc_of_neg {n : Nat} {v : Int} (h0 : v < 0) (h1 : -(2 ^ (8 * n) : Nat) ≤ v) :
    (tc n v : Int) = v + (2 ^ (8 * n) : Nat) := by
  rw [tc, ← Int.add_emod_right, Int.emod_eq_of_lt (by omega) (by omega), Int.toNat_of_nonneg (by omega)]

/-- `untc_n` undoes `tc_n` on the signed domain of n bytes (00_scope.md R14, 10_state.md R43). -/
theorem untc_tc {n : Nat} (hn : 1 ≤ n) {v : Int} (h0 : -(2 ^ (8 * n - 1) : Nat) ≤ v) (h1 : v < (2 ^ (8 * n - 1) : Nat)) :
    untc n (tc n v) = v := by
  have hhalf : 2 ^ (8 * n) = 2 * 2 ^ (8 * n - 1) := by rw [← pow_succ']; congr 1; omega
  unfold untc
  by_cases hneg : v < 0
  · have htc := natCast_tc_of_neg (n := n) hneg (by omega)
    rw [if_pos (by omega), htc]
    omega
  · have htc := natCast_tc (n := n) (v := v) (by omega) (by omega)
    rw [if_neg (by omega), htc]

theorem tc_lt (n : Nat) (v : Int) : tc n v < 256 ^ n := by
  have hpos : 0 < 2 ^ (8 * n) := Nat.two_pow_pos _
  have hlt := Int.emod_lt_of_pos v (b := (2 ^ (8 * n) : Nat)) (by omega)
  have hpow : 256 ^ n = 2 ^ (8 * n) := by rw [pow_mul]; rfl
  have hnonneg := Int.emod_nonneg v (b := (2 ^ (8 * n) : Nat)) (by omega)
  rw [tc, hpow]
  omega

/-! ## Fields and values -/

/-- The bytes of a field are its two's complement, read little-endian (30_encoding.md R114). -/
theorem leValue_encField (t : Prim) (v : Int) : leValue (encField t v) = tc t.width v := by
  rw [encField, leValue_leBytes, Nat.mod_eq_of_lt (tc_lt _ _)]

theorem decField_encField {t : Prim} {v : Int} (h : t.inDomain v = true) : decField t (encField t v) = v := by
  rw [Prim.inDomain_iff] at h
  rw [decField, leValue_encField]
  split at h
  · rename_i hsigned
    rw [if_pos hsigned]
    exact untc_tc t.width_pos h.1 h.2
  · rename_i hunsigned
    rw [if_neg hunsigned]
    exact natCast_tc h.1 h.2

/-- Settles O7: the width is that of the little-endian bytes, and the value comes back by `decField_encField`. -/
theorem fieldDecodesToWhatWasEncoded : Obligations.FieldDecodesToWhatWasEncoded :=
  fun t v h => ⟨length_encField t v, decField_encField h⟩

theorem length_encFields {fmt : List Prim} {vs : List Int} (h : fmt.length = vs.length) :
    (encFields fmt vs).length = fmtWidth fmt := by
  induction fmt generalizing vs with
  | nil => cases vs <;> rfl
  | cons t ts ih =>
    cases vs with
    | nil => cases h
    | cons v vs => simp [encFields, fmtWidth, ih (Nat.succ.inj h)]

theorem decFields_encFields {fmt : List Prim} {vs : List Int} (hlen : fmt.length = vs.length)
    (hdom : fieldsInDomain fmt vs = true) : decFields fmt (encFields fmt vs) = vs := by
  induction fmt generalizing vs with
  | nil => exact (List.length_eq_zero_iff.mp hlen.symm).symm
  | cons t ts ih =>
    cases vs with
    | nil => cases hlen
    | cons v vs =>
      simp only [fieldsInDomain, Bool.and_eq_true] at hdom
      obtain ⟨hv, hvs⟩ := hdom
      have htake := List.take_left' (l₂ := encFields ts vs) (length_encField t v)
      have hdrop := List.drop_left' (l₂ := encFields ts vs) (length_encField t v)
      rw [encFields, decFields, htake, hdrop, decField_encField hv, ih (Nat.succ.inj hlen) hvs]

theorem length_encValue {fmt : List Prim} {v : Value} (h : fits fmt v = true) :
    (encValue fmt v).length = fmtWidth fmt := by
  simp only [fits, Bool.and_eq_true] at h
  exact length_encFields (length_of_shapeOk h.1)

/-- A value is read back with its shape: a scalar for one field, a tuple for more (30_encoding.md R117). -/
theorem decValue_encValue {fmt : List Prim} {v : Value} (h : fits fmt v = true) : decValue fmt (encValue fmt v) = v := by
  simp only [fits, Bool.and_eq_true] at h
  obtain ⟨hshape, hdom⟩ := h
  match fmt, v, hshape with
  | [t], .scalar x, _ =>
    have hx : t.inDomain x = true := by simpa [fieldsInDomain, Value.fields] using hdom
    have hbytes : encValue [t] (.scalar x) = encField t x := List.append_nil _
    rw [hbytes, decValue, decField_encField hx]
  | _ :: _ :: _, .tuple _, hshape => exact congrArg Value.tuple (decFields_encFields (length_of_shapeOk hshape) hdom)

/-- Settles O8, by `length_encValue` and `decValue_encValue`. -/
theorem valueDecodesToWhatWasEncoded : Obligations.ValueDecodesToWhatWasEncoded :=
  fun _ _ h => ⟨length_encValue h, decValue_encValue h⟩

/-- Settles O9, by `fits_decValue`: a field of its type's width decodes into the type's domain (`inDomain_decField`), and a
format's fields are as many as its types. -/
theorem decodedValuesFitTheirFormat : Obligations.DecodedValuesFitTheirFormat :=
  fun _ _ hne hlen => fits_decValue hne hlen

/-! ## Index bytes and values in a payload -/

/-- A byte-sized integer comes back from its byte (30_encoding.md R122 to R124). -/
theorem toNat_byteOfInt {i : Int} (h0 : 0 ≤ i) (h1 : i < 256) : ((BitVec.ofInt 8 i).toNat : Int) = i := by
  rw [BitVec.toNat_ofInt]
  omega

/-- The Index byte of a known index is the index (10_state.md R33). -/
theorem toNat_indexByte {p : Params} (hw : p.wf = true) {i : Int} {d : Descriptor} (hd : p.regmap.findInt i = some d) :
    ((BitVec.ofInt 8 i).toNat : Int) = i := by
  obtain ⟨h0, hfind⟩ := RegMap.findInt_eq_some_iff.mp hd
  have hlt := Params.find_lt hw hfind
  exact toNat_byteOfInt h0 (by omega)

theorem find_indexByte {p : Params} (hw : p.wf = true) {i : Int} {d : Descriptor} (hd : p.regmap.findInt i = some d) :
    p.regmap.find (BitVec.ofInt 8 i).toNat = some d := by
  rw [← RegMap.findInt_natCast, toNat_indexByte hw hd, hd]

theorem encValueAt_of_findInt {rm : RegMap} {i : Int} {d : Descriptor} (hd : rm.findInt i = some d) (v : Value) :
    rm.encValueAt i v = encValue d.fmt v := by simp [RegMap.encValueAt, hd]

theorem encodable_iff {rm : RegMap} {i : Int} {v : Value} :
    rm.encodable i v = true ↔ ∃ d, rm.findInt i = some d ∧ fits d.fmt v = true := by
  unfold RegMap.encodable
  cases rm.findInt i <;> simp

/-- A value at the head of bytes is what a format's width of them decodes to (30_encoding.md R117). -/
theorem decValue_take_encValue_append {fmt : List Prim} {v : Value} (h : fits fmt v = true) (rest : List Byte) :
    decValue fmt ((encValue fmt v ++ rest).take (fmtWidth fmt)) = v := by
  rw [List.take_left' (length_encValue h), decValue_encValue h]

theorem drop_encValue_append {fmt : List Prim} {v : Value} (h : fits fmt v = true) (rest : List Byte) :
    (encValue fmt v ++ rest).drop (fmtWidth fmt) = rest := List.drop_left' (length_encValue h)

theorem not_length_encValue_append_lt {fmt : List Prim} {v : Value} (h : fits fmt v = true) (rest : List Byte) :
    ¬ (encValue fmt v ++ rest).length < fmtWidth fmt := by
  rw [List.length_append, length_encValue h]
  omega

/-! ## Payloads read back -/

/-- One round of the parse: an Index byte and a value of its format are taken as a pair (41_codec.md R232). -/
theorem parseFuel_cons_encValue {rm : RegMap} {b : Byte} {d : Descriptor} {v : Value} (hd : rm.find b.toNat = some d)
    (hfit : fits d.fmt v = true) (fuel : Nat) (rest : List Byte) :
    parseFuel rm (fuel + 1) (b :: (encValue d.fmt v ++ rest)) = (parseFuel rm fuel rest).map ((b.toNat, v) :: ·) := by
  simp only [parseFuel, hd, Descriptor.width, if_neg (not_length_encValue_append_lt hfit rest),
    decValue_take_encValue_append hfit, drop_encValue_append hfit]
  cases parseFuel rm fuel rest <;> rfl

theorem parseFuel_writePayload {p : Params} (hw : p.wf = true) {pairs : List (Int × Value)}
    (h : ∀ q ∈ pairs, p.regmap.encodable q.1 q.2 = true) {fuel : Nat}
    (hfuel : (writePayload p.regmap pairs).length ≤ fuel) :
    parseFuel p.regmap fuel (writePayload p.regmap pairs)
      = some (pairs.map fun q => ((BitVec.ofInt 8 q.1).toNat, q.2)) := by
  induction pairs generalizing fuel with
  | nil => cases fuel <;> rfl
  | cons q pairs ih =>
    obtain ⟨hq, hpairs⟩ := List.forall_mem_cons.mp h
    obtain ⟨d, hd, hfit⟩ := encodable_iff.mp hq
    cases fuel with
    | zero => simp [writePayload] at hfuel
    | succ fuel =>
      have hrest : (writePayload p.regmap pairs).length ≤ fuel := by
        simp only [writePayload, List.length_cons, List.length_append] at hfuel
        omega
      rw [writePayload, encValueAt_of_findInt hd, parseFuel_cons_encValue (find_indexByte hw hd) hfit, ih hpairs hrest]
      rfl

/-- The payload of a write is read back as its pairs (30_encoding.md R122). -/
theorem parsePairs_writePayload {p : Params} (hw : p.wf = true) {pairs : List (Int × Value)}
    (h : ∀ q ∈ pairs, p.regmap.encodable q.1 q.2 = true) :
    parsePairs p.regmap (writePayload p.regmap pairs) = some pairs := by
  have hindex : ∀ q ∈ pairs, (((BitVec.ofInt 8 q.1).toNat : Int), q.2) = q := fun q hq => by
    obtain ⟨d, hd, -⟩ := encodable_iff.mp (h q hq)
    rw [toNat_indexByte hw hd]
  rw [parsePairs, parsePayload, parseFuel_writePayload hw h le_rfl]
  simp only [List.map_map, Function.comp_def]
  rw [List.map_congr_left hindex, List.map_id']

/-- One round of the reader of groups: an id byte and a value are taken as a group (30_encoding.md R124). -/
theorem parseGroups_cons_encValue {fmt : List Prim} {v : Value} (hfit : fits fmt v = true) (b : Byte) (fuel : Nat)
    (rest : List Byte) :
    parseGroups fmt (fuel + 1) (b :: (encValue fmt v ++ rest))
      = (parseGroups fmt fuel rest).map (((b.toNat : Int), v) :: ·) := by
  simp only [parseGroups, if_neg (not_length_encValue_append_lt hfit rest), decValue_take_encValue_append hfit,
    drop_encValue_append hfit]
  cases parseGroups fmt fuel rest <;> rfl

/-- The groups of a synchronized write are read back, ids and values (30_encoding.md R124). -/
theorem parseGroups_syncGroups {rm : RegMap} {i : Int} {d : Descriptor} (hd : rm.findInt i = some d)
    {groups : List (Int × Value)} (h : ∀ q ∈ groups, 0 ≤ q.1 ∧ q.1 ≤ 255 ∧ rm.encodable i q.2 = true) {fuel : Nat}
    (hfuel : (syncGroups rm i groups).length ≤ fuel) :
    parseGroups d.fmt fuel (syncGroups rm i groups) = some groups := by
  induction groups generalizing fuel with
  | nil => cases fuel <;> rfl
  | cons q groups ih =>
    obtain ⟨⟨h0, h1, hq⟩, hgroups⟩ := List.forall_mem_cons.mp h
    obtain ⟨d', hd', hfit⟩ := encodable_iff.mp hq
    cases hd.symm.trans hd'
    cases fuel with
    | zero => simp [syncGroups] at hfuel
    | succ fuel =>
      have hrest : (syncGroups rm i groups).length ≤ fuel := by
        simp only [syncGroups, List.length_cons, List.length_append] at hfuel
        omega
      rw [syncGroups, encValueAt_of_findInt hd, parseGroups_cons_encValue hfit, ih hgroups hrest,
        toNat_byteOfInt h0 (by omega)]
      rfl

/-! ## The operands a payload carries -/

theorem parseOperands_write {p : Params} (hw : p.wf = true) {pairs : List (Int × Value)}
    (h : writeEncodable p.regmap pairs = true) {c : Command} (hc : c = .write ∨ c = .writeAck) :
    parseOperands p.regmap c (writePayload p.regmap pairs) = some [.pairs pairs] := by
  simp only [writeEncodable, Bool.and_eq_true, List.all_eq_true] at h
  have hpairs := parsePairs_writePayload hw h.1
  obtain rfl | rfl := hc <;> simp [parseOperands, hpairs]

theorem parseOperands_read {p : Params} (hw : p.wf = true) {indices : List Int}
    (h : readEncodable p.regmap indices = true) :
    parseOperands p.regmap .read (readPayload indices) = some [.ints indices] := by
  simp only [readEncodable, Bool.and_eq_true, List.all_eq_true] at h
  obtain ⟨⟨hknown, -⟩, -⟩ := h
  have hbytes : ∀ b ∈ readPayload indices, (p.regmap.find b.toNat).isSome = true := fun b hb => by
    obtain ⟨i, hi, rfl⟩ := List.mem_map.mp hb
    obtain ⟨d, hd⟩ := Option.isSome_iff_exists.mp (hknown i hi)
    rw [find_indexByte hw hd, Option.isSome_some]
  have hindices : ∀ i ∈ indices, ((BitVec.ofInt 8 i).toNat : Int) = i := fun i hi => by
    obtain ⟨d, hd⟩ := Option.isSome_iff_exists.mp (hknown i hi)
    exact toNat_indexByte hw hd
  have hback : (readPayload indices).map (fun b => (b.toNat : Int)) = indices := by
    rw [readPayload, List.map_map]
    exact (List.map_congr_left hindices).trans (List.map_id' _)
  rw [parseOperands, if_pos (List.all_eq_true.mpr hbytes), hback]

theorem parseOperands_sync {p : Params} (hw : p.wf = true) {i : Int} {groups : List (Int × Value)}
    (h : syncEncodable p.regmap i groups = true) :
    parseOperands p.regmap .syncWrite (syncPayload p.regmap i groups) = some [.int i, .pairs groups] := by
  simp only [syncEncodable, Bool.and_eq_true, List.all_eq_true, decide_eq_true_eq, and_assoc] at h
  obtain ⟨hknown, hgroups, -⟩ := h
  obtain ⟨d, hd⟩ := Option.isSome_iff_exists.mp hknown
  simp only [syncPayload, parseOperands, find_indexByte hw hd, parseGroups_syncGroups hd hgroups le_rfl,
    toNat_indexByte hw hd, Option.map_some]

/-! ## Request frames on the line -/

/-- With CMD injective, a Command's byte selects it (30_encoding.md R141). -/
theorem command_byte {cm : CommandMap} (hinj : Function.Injective cm.byte) (c : Command) :
    cm.command (cm.byte c) = some c := by
  cases hfind : cm.command (cm.byte c) with
  | none =>
    have hmem : c ∈ allCommands := by cases c <;> decide
    exact absurd (beq_self_eq_true _) (List.find?_eq_none.mp hfind c hmem)
  | some c' =>
    have hbyte : cm.byte c' = cm.byte c := by simpa using List.find?_some hfind
    rw [hinj hbyte]

theorem length_buildFrame (cm : CommandMap) (t : Byte) (c : Command) (family status : Byte) (P : List Byte) :
    (buildFrame cm t c family status P).length = 6 + P.length + 4 := by
  simp [buildFrame, sealFrame]
  omega

theorem framePayload_buildFrame (cm : CommandMap) (t : Byte) (c : Command) (family status : Byte) (P : List Byte) :
    framePayload (buildFrame cm t c family status P) = P := by
  have hcut : (buildFrame cm t c family status P).length - 4 = 6 + P.length := by
    rw [length_buildFrame]
    omega
  rw [framePayload, hcut, buildFrame, sealFrame, List.take_left' (by simp; omega)]
  rfl

/-- The strict reader takes from a frame that fits PackageSize the request its payload's operands make (30_encoding.md R110 to
R113, log 21). -/
theorem parseFrame_buildFrame {p : Params} (hinj : Function.Injective p.cmd.byte) {t : Byte} {c : Command} {P : List Byte}
    {ops : List Operand} {i : Instr} (hlen : P.length ≤ 245) (hops : parseOperands p.regmap c P = some ops)
    (hi : decodeCommand c t ops = .ok i) (family status : Byte) :
    parseFrame p (buildFrame p.cmd t c family status P) = .ok (i, family, status) := by
  have hlength := length_buildFrame p.cmd t c family status P
  have hheader : frameByte (buildFrame p.cmd t c family status P) 0 = hdrByte := rfl
  have hsize : (frameByte (buildFrame p.cmd t c family status P) 3).toNat = 6 + P.length + 4 := by
    have hbyte : frameByte (buildFrame p.cmd t c family status P) 3 = BitVec.ofNat 8 (6 + P.length + 4) := rfl
    rw [hbyte, BitVec.toNat_ofNat]
    omega
  have hcommand : frameByte (buildFrame p.cmd t c family status P) 4 = p.cmd.byte c := rfl
  have htarget : frameByte (buildFrame p.cmd t c family status P) 1 = t := rfl
  have hcrc : crcOk (buildFrame p.cmd t c family status P) = true := crcOk_sealFrame _
  have hmin : ¬ 6 + P.length + 4 < minFrame := by unfold minFrame; omega
  simp only [parseFrame, hlength, hheader, hsize, hmin, hcrc, hcommand, htarget, command_byte hinj,
    framePayload_buildFrame, hops, hi, ne_eq, not_true_eq_false, or_self, if_false, Bool.true_eq_false]
  rfl

/-- The request a frame is read back as: a MODULE_SCAN frame does not say which issuance it is, and is read as the first
(41_codec.md R206). -/
def readBack : Instr → Instr
  | .frameModuleScan t _ => .frameModuleScan t false
  | i => i

theorem decodeCommand_of_codecRequest {i : Instr} {t : Byte} {c : Command} {ops : List Operand}
    (h : codecRequest i = some (t, c, ops)) : decodeCommand c t ops = .ok i := by
  cases i <;> cases h <;> rfl

theorem writeEncodable_of_operandsWf {p : Params} {pairs : List (Int × Value)} (h : writeOperandsWf p pairs = true) :
    writeEncodable p.regmap pairs = true := by
  simp only [writeOperandsWf, Bool.and_eq_true] at h
  exact h.2

theorem readEncodable_of_operandsWf {p : Params} {t : Byte} {indices : List Int}
    (h : readOperandsWf p t indices = true) : readEncodable p.regmap indices = true := by
  simp only [readOperandsWf, Bool.and_eq_true] at h
  exact h.2

theorem syncEncodable_of_operandsWf {p : Params} {index : Int} {groups : List (Int × Value)}
    (h : syncOperandsWf p index groups = true) : syncEncodable p.regmap index groups = true := by
  simp only [syncOperandsWf, Bool.and_eq_true] at h
  exact h.2

/-- The payload of a well-formed codec request fits a frame (41_codec.md R215). -/
theorem length_codecPayload_le {p : Params} {i : Instr} {P : List Byte} (hwf : i.wf p = true)
    (hP : codecPayload p.regmap i = some P) : P.length ≤ 245 := by
  cases i
  case frameWrite t pairs | frameWriteAck t pairs =>
    cases hP
    exact length_writePayload_le (writeEncodable_of_operandsWf hwf)
  case frameRead t indices =>
    cases hP
    exact length_readPayload_le (readEncodable_of_operandsWf hwf)
  case frameSyncWrite index groups =>
    cases hP
    exact length_syncPayload_le (syncEncodable_of_operandsWf hwf)
  all_goals cases hP
  all_goals exact Nat.zero_le _

/-- The payload of a well-formed codec request carries the operands of the request it is read back as (30_encoding.md R121 to
R124). -/
theorem parseOperands_codecPayload {p : Params} (hw : p.wf = true) {i : Instr} {t : Byte} {c : Command}
    {ops : List Operand} {P : List Byte} (hwf : i.wf p = true) (hreq : codecRequest i = some (t, c, ops))
    (hP : codecPayload p.regmap i = some P) :
    ∃ ops', codecRequest (readBack i) = some (t, c, ops') ∧ parseOperands p.regmap c P = some ops' := by
  cases i
  case frameWrite t pairs =>
    cases hreq; cases hP
    exact ⟨_, rfl, parseOperands_write hw (writeEncodable_of_operandsWf hwf) (.inl rfl)⟩
  case frameWriteAck t pairs =>
    cases hreq; cases hP
    exact ⟨_, rfl, parseOperands_write hw (writeEncodable_of_operandsWf hwf) (.inr rfl)⟩
  case frameRead t indices =>
    cases hreq; cases hP
    exact ⟨_, rfl, parseOperands_read hw (readEncodable_of_operandsWf hwf)⟩
  case frameSyncWrite index groups =>
    cases hreq; cases hP
    exact ⟨_, rfl, parseOperands_sync hw (syncEncodable_of_operandsWf hwf)⟩
  all_goals cases hreq
  all_goals cases hP; exact ⟨_, rfl, rfl⟩

/-- Settles O19: a well-formed request's payload fits the frame and carries the operands of the request read back
(`length_codecPayload_le`, `parseOperands_codecPayload`), and the reader takes the frame apart into them
(`parseFrame_buildFrame`). -/
theorem requestFramesReadBack : Obligations.RequestFramesReadBack := by
  intro p i t c ops P family status hw hwf hreq hP
  obtain ⟨ops', hback, hops⟩ := parseOperands_codecPayload hw hwf hreq hP
  exact parseFrame_buildFrame (Params.cmd_injective hw) (length_codecPayload_le hwf hP) hops
    (decodeCommand_of_codecRequest hback) family status

/-! ## The requests of the ports -/

/-- The hop code of an operation selects it (30_encoding.md R161). -/
theorem hostOpOf_code (h : HostOp) : hostOpOf h.code = some h := by cases h <;> rfl

theorem decodeHost_code (h : HostOp) (ops : List Operand) : decodeHost ⟨h.code, ops⟩ = decodeHostOperands h ops := by
  simp [decodeHost, hostOpOf_code]

theorem decodeHost_of_hostRequest {i : Instr} {r : HostReq} (h : hostRequest i = some r) : decodeHost r = .ok i := by
  cases i <;> cases h <;> exact decodeHost_code _ _

theorem decodeCodec_of_codecRequest {cm : CommandMap} (hinj : Function.Injective cm.byte) {i : Instr} {t : Byte}
    {c : Command} {ops : List Operand} (h : codecRequest i = some (t, c, ops)) (family size : Byte) :
    decodeCodec cm [hdrByte, t, family, size, cm.byte c] ops = .ok i := by
  simp only [decodeCodec, if_true, command_byte hinj]
  exact decodeCommand_of_codecRequest h

/-- An instruction of neither the host port nor the codec is one of the CRC port's three (40_crc.md R182). -/
theorem decodeCrcPort_crcPortRequest {i : Instr} (hhost : hostRequest i = none) (hcodec : codecRequest i = none) :
    decodeCrcPort (crcPortRequest i).1 (crcPortRequest i).2 = .ok i := by
  cases i
  case crcInit | crcFeed | crcRead => rfl
  all_goals cases hhost
  all_goals cases hcodec

/-- The decoder inverts the encoder at each of the three ports. -/
theorem decode_encode {cm : CommandMap} (hinj : Function.Injective cm.byte) (i : Instr) :
    decode cm (encode cm i) = .ok i := by
  unfold encode
  split
  · rename_i r hhost
    exact decodeHost_of_hostRequest hhost
  · rename_i hhost
    split
    · rename_i t c ops hcodec
      exact decodeCodec_of_codecRequest hinj hcodec 0#8 0#8
    · rename_i hcodec
      exact decodeCrcPort_crcPortRequest hhost hcodec

/-- Settles O21, by `decode_encode`. -/
theorem decodeInvertsEncode : Obligations.DecodeInvertsEncode :=
  fun _ i hinj => decode_encode (fun c c' => hinj c c') i

/-! ## Hop codes of no operation -/

/-- The hop codes of the table (30_encoding.md R161). -/
theorem code_range (h : HostOp) :
    (1 ≤ h.code.toNat ∧ h.code.toNat ≤ 0x11) ∨ (0x20 ≤ h.code.toNat ∧ h.code.toNat ≤ 0x29) := by
  cases h <;> decide

theorem hostOpOf_eq_none {hop : Byte}
    (h : hop.toNat = 0 ∨ (0x12 ≤ hop.toNat ∧ hop.toNat ≤ 0x1F) ∨ 0x2A ≤ hop.toNat) : hostOpOf hop = none := by
  cases hop' : hostOpOf hop with
  | none => rfl
  | some o =>
    have hrange := code_range o
    rw [code_of_hostOpOf hop'] at hrange
    omega

/-- A record of an unknown hop code is accepted and fails (30_encoding.md R154, 60_exceptions.md R374). -/
theorem serveRequest_of_hostOpOf_eq_none {req : HostReq} (h : hostOpOf req.hop = none) (s : State) :
    serveRequest (.host req) s = .next (rejectUnknownOp req s) := by
  simp [serveRequest, decode, decodeHost, h, rejectRequest]

/-- Settles O23: the record is the next served (`serveNext_host`), its hop code is no operation's (`hostOpOf_eq_none`), and its
rejection has an error's effect (`errorEffect_rejectUnknownOp`). -/
theorem unknownHopsFail : Obligations.UnknownHopsFail := by
  intro s hop ops rest hw hinternal hidle hpending hhop
  refine ⟨rejectUnknownOp ⟨hop, ops⟩ { s with pending := rest }, ?_, errorEffect_rejectUnknownOp _ _⟩
  rw [step_of_wf hw, serveNext_host hinternal hpending, if_pos hidle]
  exact serveRequest_of_hostOpOf_eq_none (hostOpOf_eq_none hhop) _

/-! ## Words of the opcode table -/

/-- A table word whose request is that of an instruction decodes to it (30_encoding.md R161). -/
theorem decodeTableWord_of_encode {nbits w : Nat} {i : Instr} (h : tableRequest nbits w = encode tpCmd i) :
    decodeTableWord nbits w = some i := by
  have hinj : Function.Injective tpCmd.byte := Params.cmd_injective (p := tp) (by decide)
  rw [decodeTableWord, h, decode_encode hinj]

/-- Settles O25: five words write the requests of their rows, and 0x12 is the hop code of none. -/
theorem tableWordsDecodeToTheirRows : Obligations.TableWordsDecodeToTheirRows :=
  ⟨decodeTableWord_of_encode rfl, decodeTableWord_of_encode rfl, rfl, decodeTableWord_of_encode rfl,
    decodeTableWord_of_encode rfl, decodeTableWord_of_encode rfl⟩

end Sys2Proof.Machine
end

-- ==== The CRC engine (40_crc.md) ====
section
/-! PROOFS. What the CRC port's operations write (O1, O3); one shift in integers (O2); the byte-table form, which the shift's
linearity gives (O4); that feeding is one to one in the register and in the byte, so that one changed byte is detected (O5);
and a frame's four-byte trailer (O6). -/

namespace Sys2Proof.Machine

/-! ## The port's operations -/

theorem exec_crcInit (s : State) : exec .crcInit s = .next { s with crcReg := crcInitValue } := rfl

theorem exec_crcFeed (b : Byte) (s : State) : exec (.crcFeed b) s = .next { s with crcReg := crcFeedByte s.crcReg b } := rfl

theorem exec_crcRead (s : State) : exec .crcRead s = .next { s with crcOut := some s.crcReg } := rfl

/-- Settles O1, by what each operation writes; CRC_FEED's eight shifts are `crcShiftN 8`. -/
theorem crcPortOperationsComplete : Obligations.CrcPortOperationsComplete :=
  fun s => ⟨exec_crcInit s, fun b => exec_crcFeed b s, exec_crcRead s⟩

theorem execAll_cons_of_next {i : Instr} {s t : State} (h : exec i s = .next t) (rest : List Instr) :
    execAll (i :: rest) s = execAll rest t := by
  rw [execAll, h]

/-- Feeding a list from any register and reading (40_crc.md R172, R173). -/
theorem execAll_feed_read (L : List Byte) (s : State) :
    execAll (L.map Instr.crcFeed ++ [Instr.crcRead]) s
      = .next { s with crcReg := crcFeedAll s.crcReg L, crcOut := some (crcFeedAll s.crcReg L) } := by
  induction L generalizing s with
  | nil => exact execAll_cons_of_next (exec_crcRead s) []
  | cons b L ih => exact (execAll_cons_of_next (exec_crcFeed b s) _).trans (ih _)

/-- Settles O3: CRC_INIT leaves `crcInitValue`, from which the list is fed and read (`execAll_feed_read`). -/
theorem feedingBytesReadsCrc32 : Obligations.FeedingBytesReadsCrc32 :=
  fun L s => (execAll_cons_of_next (exec_crcInit s) _).trans (execAll_feed_read L _)

/-! ## One shift -/

theorem getLsbD_31_eq_decide (r : Word32) : r.getLsbD 31 = decide (2 ^ 31 ≤ r.toNat) := BitVec.msb_eq_decide r

theorem crcShift_eq_xor (r : Word32) : crcShift r = (r <<< 1) ^^^ (if r.getLsbD 31 then crcPoly else 0#32) := by
  unfold crcShift
  split
  · rfl
  · exact BitVec.xor_zero.symm

/-- Settles O2: bit 31 is set from 2^31 up (`getLsbD_31_eq_decide`), and `crcShift_eq_xor` in integers. -/
theorem crcShiftDoublesModuloPolynomial : Obligations.CrcShiftDoublesModuloPolynomial := by
  intro r
  have hdouble : (r <<< 1).toNat = 2 * r.toNat % 2 ^ 32 := by
    rw [BitVec.toNat_shiftLeft, Nat.shiftLeft_eq, pow_one, Nat.mul_comm]
  have hpoly : (if r.getLsbD 31 then crcPoly else 0#32).toNat = if 2 ^ 31 ≤ r.toNat then 0x04C11DB7 else 0 := by
    rw [getLsbD_31_eq_decide]
    by_cases h : 2 ^ 31 ≤ r.toNat
    · rw [if_pos h, if_pos (decide_eq_true h)]; rfl
    · rw [if_neg h, if_neg (by simpa using h)]; rfl
  rw [crcShift_eq_xor, BitVec.toNat_xor, hdouble, hpoly]

/-! ## The byte-table form -/

/-- Where the n highest bits are 0, no shift of the n takes the polynomial in (40_crc.md R172). -/
theorem crcShiftN_of_high_zero {n : Nat} {r : Word32} (h : ∀ i < n, r.getLsbD (31 - i) = false) :
    crcShiftN n r = r <<< n := by
  induction n generalizing r with
  | zero => exact (BitVec.shiftLeft_zero r).symm
  | succ n ih =>
    have htop : crcShift r = r <<< 1 := if_neg (by rw [h 0 n.succ_pos]; decide)
    have hnext : ∀ i < n, (r <<< 1).getLsbD (31 - i) = false := by
      intro i hi
      rw [BitVec.getLsbD_shiftLeft, Nat.sub_sub, h (i + 1) (by omega), Bool.and_false]
    rw [crcShiftN, htop, ih hnext, ← BitVec.shiftLeft_add, Nat.add_comm]

/-- The three lower bytes of the register shift by a byte without the polynomial. -/
theorem crcShiftN_low (r : Word32) : crcShiftN 8 (r <<< 8 >>> 8) = r <<< 8 := by
  have hzero : ∀ i < 8, (r <<< 8 >>> 8).getLsbD (31 - i) = false := by
    intro i hi
    rw [BitVec.getLsbD_ushiftRight]
    exact BitVec.getLsbD_of_ge _ _ (by omega)
  rw [crcShiftN_of_high_zero hzero]
  apply BitVec.eq_of_getLsbD_eq
  intro i hi
  by_cases h : i < 8
  · simp [h]
  · simp [h, hi, show 8 + (i - 8) = i by omega]

/-- The register as its highest byte, at bits 31..24, and the three lower bytes. -/
theorem eq_high_xor_low (r : Word32) : r = (((r >>> 24).setWidth 8).setWidth 32 <<< 24) ^^^ (r <<< 8 >>> 8) := by
  apply BitVec.eq_of_getLsbD_eq
  intro i hi
  by_cases h : i < 24
  · simp [h, hi, show 8 + i < 32 by omega]
  · simp [h, hi, show i - 24 < 8 by omega, show i - 24 < 32 by omega, show 24 + (i - 24) = i by omega,
      show ¬ 8 + i < 32 by omega]

/-- CRC_FEED's entry of a byte, at bits 31..24, is linear (40_crc.md R172). -/
theorem byteAtTop_xor (a b : Byte) :
    (a ^^^ b).setWidth 32 <<< 24 = (a.setWidth 32 <<< 24) ^^^ (b.setWidth 32 <<< 24 : Word32) := by
  rw [BitVec.setWidth_xor, BitVec.shiftLeft_xor_distrib]

/-- An entry of the table is eight shifts of its byte at bits 31..24 (40_crc.md R175). -/
theorem crcTable_eq (n : Byte) : crcTable n = crcShiftN 8 (n.setWidth 32 <<< 24) := by
  rw [crcTable, crcFeedByte, BitVec.zero_xor]

/-- The byte step is its table form (40_crc.md R175): the eight shifts are linear, the register's highest byte goes with the
byte fed into the table, and the lower three are only shifted. -/
theorem crcFeedByte_eq_crcFeedTable (r : Word32) (b : Byte) : crcFeedByte r b = crcFeedTable r b := by
  have hsplit : r ^^^ (b.setWidth 32 <<< 24) = (r <<< 8 >>> 8) ^^^ (((r >>> 24).setWidth 8 ^^^ b).setWidth 32 <<< 24) := by
    rw [byteAtTop_xor, ← BitVec.xor_assoc, BitVec.xor_comm (r <<< 8 >>> 8), ← eq_high_xor_low]
  rw [crcFeedByte, hsplit, crcShiftN_xor, crcShiftN_low, ← crcTable_eq, crcFeedTable]

theorem crcFeedAll_eq_foldl (r : Word32) (L : List Byte) : crcFeedAll r L = L.foldl crcFeedTable r := by
  induction L generalizing r with
  | nil => rfl
  | cons b L ih => rw [crcFeedAll, crcFeedByte_eq_crcFeedTable, List.foldl_cons, ih]

/-- Settles O4: `crcFeedByte_eq_crcFeedTable` byte by byte, and `crcFeedAll_eq_foldl` from CRC_INIT's value. -/
theorem crcTableFormAgrees : Obligations.CrcTableFormAgrees :=
  ⟨crcFeedByte_eq_crcFeedTable, fun L => (crcFeedAll_eq_foldl crcInitValue L).symm⟩

/-! ## One changed byte -/

theorem crcFeedByte_injective_register (b : Byte) : Function.Injective fun r => crcFeedByte r b :=
  fun _ _ h => (BitVec.xor_left_inj _).mp (crcShiftN_injective 8 h)

/-- The byte that entered at bits 31..24 is read back there. -/
theorem byteAtTop_injective : Function.Injective fun b : Byte => (b.setWidth 32 <<< 24 : Word32) := by
  intro a b h
  have hback : ∀ c : Byte, ((c.setWidth 32 <<< 24 : Word32) >>> 24).setWidth 8 = c := by
    intro c
    apply BitVec.eq_of_getLsbD_eq
    intro i hi
    simp [show 24 + i < 32 by omega, hi]
  rw [← hback a, ← hback b]
  exact congrArg (fun r : Word32 => (r >>> 24).setWidth 8) h

theorem crcFeedByte_injective_byte (r : Word32) : Function.Injective (crcFeedByte r) :=
  fun _ _ h => byteAtTop_injective ((BitVec.xor_right_inj _).mp (crcShiftN_injective 8 h))

/-- Two registers stay different through equal bytes (40_crc.md R180). -/
theorem crcFeedAll_injective (L : List Byte) : Function.Injective fun r => crcFeedAll r L := by
  induction L with
  | nil => exact fun _ _ h => h
  | cons b L ih => exact fun _ _ h => crcFeedByte_injective_register b (ih h)

/-- Lists that differ in one byte have different checksums (40_crc.md R180). -/
theorem byte_eq_of_crc32_eq {A B : List Byte} {a b : Byte} (h : crc32 (A ++ a :: B) = crc32 (A ++ b :: B)) : a = b := by
  rw [crc32, crc32, crcFeedAll_append, crcFeedAll_append] at h
  exact crcFeedByte_injective_byte _ (crcFeedAll_injective B h)

theorem crc32_set_ne {L : List Byte} {i : Nat} {b : Byte} (hi : i < L.length) (hb : L[i]? ≠ some b) :
    crc32 (L.set i b) ≠ crc32 L := by
  intro h
  have hL : L = L.take i ++ L[i] :: L.drop (i + 1) := by
    rw [List.getElem_cons_drop, List.take_append_drop]
  have hset : L.set i b = L.take i ++ b :: L.drop (i + 1) := List.set_eq_take_append_cons_drop ▸ if_pos hi
  rw [hset] at h
  have hbyte : b = L[i] := byte_eq_of_crc32_eq (h.trans (congrArg crc32 hL))
  exact hb (hbyte ▸ List.getElem?_eq_getElem hi)

/-! ## A frame's trailer -/

/-- The trailer of a sealed frame is read back as the checksum (40_crc.md R177, R178). -/
theorem leValue_trailer (w : Word32) : leValue (leBytes 4 w.toNat) = w.toNat :=
  (leValue_leBytes 4 _).trans (Nat.mod_eq_of_lt w.isLt)

/-- The four little-endian bytes of a word are its bits 7..0, 15..8, 23..16 and 31..24 (00_scope.md R14). -/
theorem leBytes_four (w : Word32) :
    leBytes 4 w.toNat = [w.extractLsb' 0 8, w.extractLsb' 8 8, w.extractLsb' 16 8, w.extractLsb' 24 8] := by
  have hbyte : ∀ k, w.extractLsb' k 8 = BitVec.ofNat 8 (w.toNat / 2 ^ k) := fun k => by
    rw [BitVec.extractLsb', Nat.shiftRight_eq_div_pow]
  simp only [leBytes, hbyte, Nat.div_div_eq_div_mul, Nat.reducePow, Nat.reduceMul, Nat.div_one]

/-- A trailer sealed over one list passes under another exactly where the checksums are equal (40_crc.md R178). -/
theorem crcOk_append_leBytes (B C : List Byte) :
    crcOk (B ++ leBytes 4 (crc32 C).toNat) = true ↔ crc32 B = crc32 C := by
  rw [crcOk_append B _ (length_leBytes ..), leValue_trailer, beq_iff_eq, BitVec.toNat_inj]

/-- Settles O5: the checksum differs (`crc32_set_ne`), and so from the trailer (`crcOk_append_leBytes`). -/
theorem oneByteChangeChangesCrc : Obligations.OneByteChangeChangesCrc := by
  intro L i b hi hb
  have hne := crc32_set_ne hi hb
  exact ⟨hne, Bool.eq_false_iff.mpr fun hok => hne ((crcOk_append_leBytes _ _).mp hok)⟩

theorem leValue_four (b0 b1 b2 b3 : Byte) :
    leValue [b0, b1, b2, b3] = b0.toNat + 256 * b1.toNat + 65536 * b2.toNat + 16777216 * b3.toNat := by
  simp only [leValue]
  omega

/-- Settles O6: the sealed frame by `leBytes_four` and `crcOk_sealFrame`, and any trailer by `crcOk_append` and
`leValue_four`. -/
theorem sealedFramesPassTheCheck : Obligations.SealedFramesPassTheCheck := by
  refine ⟨fun B => ⟨?_, crcOk_sealFrame B⟩, fun B b0 b1 b2 b3 => ?_⟩
  · rw [sealFrame, leBytes_four]
  · rw [crcOk_append B _ rfl, leValue_four, beq_iff_eq]

end Sys2Proof.Machine
end

-- ==== The codec (41_codec.md) ====
section
/-! PROOFS. A header byte is its mirror's value (O12); the state an encode leaves, written out, and from it what each Command
writes (O13 to O17) and when it stops (O18); and the reply that carries one pair (O20). -/

namespace Sys2Proof.Machine

/-! ## The header bytes of a mirror -/

/-- What an unlisted cell reads as is of its index's format (10_state.md R33, R36, R45). -/
theorem fits_unlistedValue {p : Params} (hw : p.wf = true) {idx : Nat} {d : Descriptor}
    (hd : p.regmap.find idx = some d) : fits d.fmt (unlistedValue p d) = true := by
  rw [unlistedValue_of_find hd]
  split
  · rename_i hid
    rw [Params.header_fmt_of_find hw (by omega) hd]
    exact fits_byte le_rfl
  · split
    · rename_i hfamily
      rw [Params.header_fmt_of_find hw (by omega) hd]
      exact fits_byte (Nat.le_of_lt_succ p.sentinelFamily.isLt)
    · exact Params.fits_reset hw hd

/-- A listed cell of the canonical form holds a value of its index's format (10_state.md R42, R43). -/
theorem fits_of_lookupCell {p : Params} {m : Cells} (h : cellsWf p m = true) {a : Nat} {d : Descriptor} {v : Value}
    (hd : cellDesc p a = some d) (hl : lookupCell a m = some v) : fits d.fmt v = true := by
  obtain ⟨hrising, hok⟩ := (cellsWf_iff p m).mp h
  have hcell := hok _ ((lookupCell_eq_some_iff hrising).mp hl)
  simp only [cellOk, hd, Bool.and_eq_true] at hcell
  exact hcell.1

/-- Every index of every slot reads as a value of its format (10_state.md R42, R43). -/
theorem TableInv.fits_read {s : State} (h : TableInv s) {slot idx : Nat} (hs : slot < 256) {d : Descriptor}
    (hd : s.cfg.regmap.find idx = some d) : ∃ v, s.read slot idx = some v ∧ fits d.fmt v = true := by
  obtain ⟨hw, hcells, -, -⟩ := h
  have hidx := Params.find_lt hw hd
  rw [State.read, readCells_eq _ _ hs hidx, hd]
  refine ⟨_, rfl, ?_⟩
  cases hl : lookupCell (cellAddr slot idx) s.dt with
  | none => exact fits_unlistedValue hw hd
  | some v => exact fits_of_lookupCell hcells ((cellDesc_cellAddr _ hs hidx).trans hd) hl

theorem toNat_mirrorByte_of_read {s : State} {slot idx n : Nat} (hr : s.read slot idx = some (.scalar n)) (hn : n ≤ 255) :
    (s.mirrorByte slot idx).toNat = n := by
  have hbyte := toNat_byteOfInt (i := n) (by omega) (by omega)
  rw [State.mirrorByte, hr]
  exact_mod_cast hbyte

/-- A header index reads as the byte the codec puts into a frame (41_codec.md R201, 10_state.md R36). -/
theorem TableInv.read_header {s : State} (h : TableInv s) {slot idx : Nat} (hs : slot < 256) (hi : idx ≤ 5) :
    s.read slot idx = some (.scalar (s.mirrorByte slot idx).toNat) := by
  obtain ⟨d, hd, hfmt⟩ := Params.header_fmt h.1 hi
  obtain ⟨v, hr, hfit⟩ := h.fits_read hs hd
  rw [hfmt] at hfit
  obtain ⟨n, hn, rfl⟩ := (fits_u8_iff v).mp hfit
  rw [toNat_mirrorByte_of_read hr hn, hr]

/-- Settles O12, by `TableInv.read_header` at DeviceFamily and Status. -/
theorem headerBytesAreMirrorValues : Obligations.HeaderBytesAreMirrorValues :=
  fun _ _ h hs => ⟨h.read_header hs (by decide), h.read_header hs (by decide)⟩

/-! ## Payloads and lengths as the statements write them -/

/-- The bytes a list of indices takes, as one sum (30_encoding.md R122, R127). -/
theorem sizeOfIndices_eq_sum (rm : RegMap) (indices : List Int) :
    sizeOfIndices rm indices = (indices.map fun i => 1 + rm.widthInt i).sum := by
  induction indices with
  | nil => rfl
  | cons i indices ih => rw [sizeOfIndices, ih, List.map_cons, List.sum_cons]

/-- The groups of a synchronized write, group by group (30_encoding.md R124). -/
theorem syncGroups_eq_flatMap (rm : RegMap) (i : Int) (groups : List (Int × Value)) :
    syncGroups rm i groups = groups.flatMap fun q => BitVec.ofInt 8 q.1 :: rm.encValueAt i q.2 := by
  induction groups with
  | nil => rfl
  | cons q groups ih => rw [syncGroups, ih, List.flatMap_cons, List.cons_append]

/-- The length of a write's frame (30_encoding.md R122). -/
theorem writeLen_eq {rm : RegMap} {pairs : List (Int × Value)} (h : ∀ q ∈ pairs, rm.encodable q.1 q.2 = true) :
    6 + (writePayload rm pairs).length + 4 = writeLen rm pairs := by
  rw [length_writePayload h]
  rfl

/-- The length of a synchronized write's frame (30_encoding.md R124). -/
theorem syncLen_eq {rm : RegMap} {i : Int} {groups : List (Int × Value)} (h : ∀ q ∈ groups, rm.encodable i q.2 = true) :
    6 + (syncPayload rm i groups).length + 4 = 6 + 1 + groups.length * (1 + rm.widthInt i) + 4 := by
  rw [syncPayload, List.length_cons, length_syncGroups h]
  omega

/-! ## When operands have a frame -/

theorem writeEncodable_iff {rm : RegMap} {pairs : List (Int × Value)} : writeEncodable rm pairs = true ↔
    (∀ q ∈ pairs, rm.encodable q.1 q.2 = true) ∧ writeLen rm pairs ≤ 255 := by
  simp only [writeEncodable, Bool.and_eq_true, List.all_eq_true, decide_eq_true_eq]
  rfl

theorem readEncodable_iff {rm : RegMap} {indices : List Int} : readEncodable rm indices = true ↔
    (∀ i ∈ indices, (rm.findInt i).isSome = true) ∧ readLen indices ≤ 255 ∧ readAckLen rm indices ≤ 255 := by
  simp only [readEncodable, Bool.and_eq_true, List.all_eq_true, decide_eq_true_eq, and_assoc]
  rfl

theorem syncEncodable_iff {rm : RegMap} {i : Int} {groups : List (Int × Value)} : syncEncodable rm i groups = true ↔
    (rm.findInt i).isSome = true ∧ (∀ q ∈ groups, 0 ≤ q.1 ∧ q.1 ≤ 255 ∧ rm.encodable i q.2 = true)
      ∧ syncLen rm i groups ≤ 255 := by
  simp only [syncEncodable, Bool.and_eq_true, List.all_eq_true, decide_eq_true_eq, and_assoc]
  rfl

/-! ## The state an encode leaves -/

/-- An encode writes the sealed frame of header and payload, the acknowledgment size and the CRC engine's register, and nothing
else (41_codec.md R200 to R202). -/
theorem State.encode_eq (s : State) (t : Byte) (c : Command) (P : List Byte) (ack : Nat) {N : Nat}
    (hN : 6 + P.length + 4 = N) : s.encode t c P ack = { s with
      txbuf := sealFrame ([0x55#8, t, s.mirrorByte t.toNat 2, BitVec.ofNat 8 N, s.cfg.cmd.byte c,
        s.mirrorByte t.toNat 5] ++ P)
      ackSize := ack
      crcReg := (s.encode t c P ack).crcReg } := by
  subst hN
  rfl

theorem codecHdr_of_ne {t : Byte} (ht : t ≠ 0xFF#8) (c : Command) (second : Bool) (s : State) :
    codecHdr t c second s = .next (s.encode t c [] (hdrAck second c)) :=
  if_pos ((unicastTarget_iff t).mpr ht)

/-- Settles O13: each of the ten requests is `codecHdr` of its Command, and its size is `hdrAck`'s. -/
theorem headerCommandsEncode : Obligations.HeaderCommandsEncode := by
  intro s t ht e he
  have hrun : ∃ second, exec e.1 s = codecHdr t e.2.1 second s ∧ hdrAck second e.2.1 = e.2.2 := by
    simp only [List.mem_cons, List.not_mem_nil, or_false] at he
    obtain rfl | rfl | rfl | rfl | rfl | rfl | rfl | rfl | rfl | rfl := he <;> exact ⟨_, rfl, rfl⟩
  obtain ⟨second, hexec, hack⟩ := hrun
  rw [← hack]
  exact ⟨_, hexec.trans (codecHdr_of_ne ht ..), s.encode_eq t e.2.1 [] _ rfl⟩

theorem codecWrite_of_encodable {s : State} {pairs : List (Int × Value)} (h : writeEncodable s.cfg.regmap pairs = true)
    (t : Byte) (ack : Bool) : codecWrite t pairs ack s = .next (s.encWrite t pairs ack) := if_pos h

/-- Settles O14: both requests are `codecWrite`, whose payload and length are those of the pairs (`writePayload_eq_flatMap`,
`writeLen_eq`). -/
theorem writeCommandsEncode : Obligations.WriteCommandsEncode := by
  intro s t pairs henc hlen
  have hframe := writeEncodable_iff.mpr ⟨henc, hlen⟩
  have hN := writeLen_eq henc
  rw [← writePayload_eq_flatMap]
  simp only [List.forall_mem_cons, List.not_mem_nil, false_imp_iff, implies_true, and_true]
  constructor
  · exact ⟨_, codecWrite_of_encodable hframe t false, s.encode_eq t .write _ 0 hN⟩
  · have hack := s.encode_eq t .writeAck (writePayload s.cfg.regmap pairs) (writeLen s.cfg.regmap pairs) hN
    exact ⟨_, (codecWrite_of_encodable hframe t true).trans (by rw [← hN]; rfl), hack⟩

theorem execFrameRead_of_encodable {s : State} {t : Byte} (ht : t ≠ 0xFF#8) {indices : List Int}
    (h : readEncodable s.cfg.regmap indices = true) : execFrameRead t indices s = .next (s.encRead t indices) :=
  (if_pos ((unicastTarget_iff t).mpr ht)).trans (if_pos h)

/-- Settles O15: the frame's length is `readLen`, and the reply's `readAckLen` is the sum of the statement
(`sizeOfIndices_eq_sum`). -/
theorem readCommandEncodes : Obligations.ReadCommandEncodes := by
  intro s t indices ht hknown hlen hack
  rw [← sizeOfIndices_eq_sum] at hack ⊢
  have hframe := readEncodable_iff.mpr ⟨hknown, hlen, hack⟩
  have hN : 6 + (readPayload indices).length + 4 = 6 + indices.length + 4 := by rw [readPayload, List.length_map]
  exact ⟨_, execFrameRead_of_encodable ht hframe, s.encode_eq t .read _ _ hN⟩

theorem execFrameSyncWrite_of_encodable {s : State} {i : Int} {groups : List (Int × Value)}
    (h : syncEncodable s.cfg.regmap i groups = true) :
    execFrameSyncWrite i groups s = .next (s.encSync i groups) := if_pos h

/-- Settles O16: the payload and the length are those of the groups (`syncGroups_eq_flatMap`, `syncLen_eq`), and the target is
255. -/
theorem syncCommandEncodes : Obligations.SyncCommandEncodes := by
  intro s i groups hknown hgroups hlen
  have hbytes : ∀ q ∈ groups, 0 ≤ q.1 ∧ q.1 ≤ 255 ∧ s.cfg.regmap.encodable i q.2 = true := fun q hq =>
    (hgroups q hq).imp_right (And.imp_left fun hid => by omega)
  have hframe := syncEncodable_iff.mpr ⟨hknown, hbytes, hlen⟩
  have hN := syncLen_eq fun q hq => (hgroups q hq).2.2
  rw [← syncGroups_eq_flatMap]
  exact ⟨_, execFrameSyncWrite_of_encodable hframe, s.encode_eq 0xFF#8 .syncWrite _ 0 hN⟩

/-! ## Every well-formed request encodes -/

theorem ne_broadcast_of_readOperandsWf {p : Params} {t : Byte} {indices : List Int}
    (h : readOperandsWf p t indices = true) : t ≠ 0xFF#8 := by
  simp only [readOperandsWf, Bool.and_eq_true] at h
  obtain ⟨⟨htarget, -⟩, -⟩ := h
  exact (unicastTarget_iff t).mp htarget

/-- A well-formed codec request encodes its payload for its target, with an acknowledgment size that is a frame's
(41_codec.md R200 to R211, R215). -/
theorem exec_of_codecRequest {s : State} {i : Instr} {t : Byte} {c : Command} {ops : List Operand}
    (hreq : codecRequest i = some (t, c, ops)) (hwf : i.wf s.cfg = true) :
    ∃ P ack, codecPayload s.cfg.regmap i = some P ∧ exec i s = .next (s.encode t c P ack) ∧ ack ≤ 255 := by
  cases i
  case frameWrite | frameWriteAck =>
    cases hreq
    have hframe := writeEncodable_of_operandsWf hwf
    obtain ⟨henc, hlen⟩ := writeEncodable_iff.mp hframe
    exact ⟨_, _, rfl, codecWrite_of_encodable hframe t _, writeAck_le henc hlen _⟩
  case frameRead =>
    cases hreq
    have hframe := readEncodable_of_operandsWf hwf
    obtain ⟨-, -, hack⟩ := readEncodable_iff.mp hframe
    exact ⟨_, _, rfl, execFrameRead_of_encodable (ne_broadcast_of_readOperandsWf hwf) hframe, hack⟩
  case frameSyncWrite =>
    cases hreq
    exact ⟨_, _, rfl, execFrameSyncWrite_of_encodable (syncEncodable_of_operandsWf hwf), Nat.zero_le _⟩
  all_goals cases hreq
  all_goals exact ⟨_, _, rfl, codecHdr_of_ne ((unicastTarget_iff t).mp hwf) _ _ s, (hdrAck_le _ _).trans (by decide)⟩

/-- The PackageSize byte of a sealed frame is its length (41_codec.md R205). -/
theorem packageSize_of_frameSealed {F : List Byte} (h : frameSealed F = true) : (frameByte F 3).toNat = F.length := by
  simp only [frameSealed, Bool.and_eq_true, beq_iff_eq] at h
  obtain ⟨⟨-, hsize⟩, -⟩ := h
  exact hsize

/-- Settles O17: the request encodes (`exec_of_codecRequest`) a payload that fits a frame (`length_codecPayload_le`), which seals
it (`frameSealed_encode`). -/
theorem codecRequestsLeaveSealedFrames : Obligations.CodecRequestsLeaveSealedFrames := by
  intro s i hcodec hwf
  obtain ⟨⟨t, c, ops⟩, hreq⟩ := Option.isSome_iff_exists.mp hcodec
  obtain ⟨P, ack, hP, hexec, hack⟩ := exec_of_codecRequest hreq hwf
  have hsealed := frameSealed_encode s t c (length_codecPayload_le hwf hP)
  exact ⟨_, hexec, hsealed, packageSize_of_frameSealed hsealed, hack⟩

/-! ## Requests that stop -/

theorem not_writeEncodable {rm : RegMap} {pairs : List (Int × Value)}
    (h : (∃ q ∈ pairs, rm.encodable q.1 q.2 = false) ∨ 255 < writeLen rm pairs) : ¬ writeEncodable rm pairs = true := by
  rw [writeEncodable_iff]
  rintro ⟨henc, hlen⟩
  obtain ⟨q, hq, hno⟩ | hlong := h
  · exact Bool.eq_false_iff.mp hno (henc q hq)
  · omega

theorem not_readEncodable {rm : RegMap} {indices : List Int}
    (h : (∃ i ∈ indices, rm.findInt i = none) ∨ 255 < readLen indices ∨ 255 < readAckLen rm indices) :
    ¬ readEncodable rm indices = true := by
  rw [readEncodable_iff]
  rintro ⟨hknown, hlen, hack⟩
  obtain ⟨i, hi, hno⟩ | hlong | hlong := h
  · exact Option.isSome_iff_ne_none.mp (hknown i hi) hno
  · omega
  · omega

theorem not_syncEncodable {rm : RegMap} {i : Int} {groups : List (Int × Value)}
    (h : rm.findInt i = none ∨ (∃ q ∈ groups, q.1 < 0 ∨ 255 < q.1 ∨ rm.encodable i q.2 = false)
      ∨ 255 < syncLen rm i groups) : ¬ syncEncodable rm i groups = true := by
  rw [syncEncodable_iff]
  rintro ⟨hknown, hgroups, hlen⟩
  obtain hno | ⟨q, hq, hgroup⟩ | hlong := h
  · exact Option.isSome_iff_ne_none.mp hknown hno
  · obtain ⟨h0, h1, henc⟩ := hgroups q hq
    obtain hneg | hbig | hno := hgroup
    · omega
    · omega
    · exact Bool.eq_false_iff.mp hno henc
  · omega

/-- Settles O18: the Commands with operands stop where they have no frame (`not_writeEncodable`, `not_readEncodable`,
`not_syncEncodable`), and 255 is no unicast target. -/
theorem unencodableRequestsStop : Obligations.UnencodableRequestsStop := by
  intro s t pairs indices index second
  refine ⟨fun h => ?_, fun ht h => ?_, fun h => ?_, fun i hi => ?_⟩
  · exact ⟨if_neg (not_writeEncodable h), if_neg (not_writeEncodable h)⟩
  · exact (if_pos ((unicastTarget_iff t).mpr ht)).trans (if_neg (not_readEncodable h))
  · exact if_neg (not_syncEncodable h)
  · simp only [List.mem_cons, List.not_mem_nil, or_false] at hi
    obtain rfl | rfl | rfl | rfl | rfl | rfl | rfl | rfl | rfl | rfl := hi <;> rfl

/-! ## A reply of one pair -/

theorem parsePayload_one {rm : RegMap} {idx : Nat} {d : Descriptor} {v : Value} (hd : rm.find idx = some d)
    (hi : idx < 256) (hfit : fits d.fmt v = true) :
    parsePayload rm (BitVec.ofNat 8 idx :: encValue d.fmt v) = some [(idx, v)] := by
  have hbyte : (BitVec.ofNat 8 idx).toNat = idx := BitVec.toNat_ofNat idx 8 ▸ Nat.mod_eq_of_lt hi
  have hround := parseFuel_cons_encValue (hbyte.symm ▸ hd) hfit (encValue d.fmt v).length []
  rw [List.append_nil, hbyte] at hround
  rw [parsePayload, List.length_cons, hround]
  cases (encValue d.fmt v).length <;> rfl

/-- A built frame that fits PackageSize, with a payload that parses, is a decoded reply from its target (42_bus_master.md R280,
41_codec.md R231, R232). -/
theorem classifyReply_buildFrame {rm : RegMap} {t : Byte} {P : List Byte} {ws : List (Nat × Value)} {n : Nat}
    (hpos : 1 ≤ P.length) (hlen : P.length ≤ 245) (hn : n ≤ 6 + P.length + 4) (hparse : parsePayload rm P = some ws)
    (cm : CommandMap) (c : Command) (family status : Byte) :
    classifyReply rm n (buildFrame cm t c family status P) = .decoded t.toNat ws := by
  have hcrc : crcOk (buildFrame cm t c family status P) = true := crcOk_sealFrame _
  have hlength := length_buildFrame cm t c family status P
  have htarget : frameByte (buildFrame cm t c family status P) 1 = t := rfl
  have hsize : frameByte (buildFrame cm t c family status P) 3 = BitVec.ofNat 8 (6 + P.length + 4) := rfl
  have hdecoded : ¬ (BitVec.ofNat 8 (6 + P.length + 4)).toNat ≤ minFrame := by
    rw [BitVec.toNat_ofNat, minFrame]
    omega
  rw [classifyReply_of_accepted (by rw [hlength, hcrc, decide_eq_true hn]; rfl), hsize, if_neg hdecoded,
    framePayload_buildFrame, hparse, htarget]

/-- Settles O20: the frame is a decoded reply (`classifyReply_buildFrame`) of one pair (`parsePayload_one`), and its commit is one
mirror write, discarded for CRCValue (`writeValue_crcValue`). -/
theorem replyRoundTrip : Obligations.ReplyRoundTrip := by
  intro s idx slot d v c family status n hd hi hfit hslot hlen hn
  have hbcast : slot ≠ bcast := Nat.ne_of_lt hslot
  have hcommit : s.commit slot [(idx, v)] = { s with dt := writeValue s.cfg s.dt slot idx v } := if_neg hbcast
  have hwidth : (BitVec.ofNat 8 idx :: encValue d.fmt v).length = 1 + d.width := by
    rw [List.length_cons, length_encValue hfit, Nat.add_comm]
    rfl
  have htarget : (BitVec.ofNat 8 slot).toNat = slot := by
    rw [BitVec.toNat_ofNat]
    omega
  refine ⟨?_, fun hne => ?_, fun hcrc => ?_⟩
  · have hreply := classifyReply_buildFrame (t := BitVec.ofNat 8 slot) (n := n) (by omega) (by omega) (by omega)
      (parsePayload_one hd hi hfit) s.cfg.cmd c family status
    rwa [htarget] at hreply
  · rw [hcommit, writeValue_of_ne hne]
    exact readCells_writeCells_same s.cfg s.dt v (by omega) hi (by rw [hd]; rfl)
  · rw [hcommit, hcrc, writeValue_crcValue]

end Sys2Proof.Machine
end

-- ==== Mirror writes and the module map (42_bus_master.md) ====
section
/-! PROOFS. What a list of mirror writes leaves at an index (O10); and the module map, bit by bit (O41). -/

namespace Sys2Proof.Machine

/-! ## A list of mirror writes -/

/-- A write to CRCValue or to another index leaves what an index reads (10_state.md R44, R64). -/
theorem readCells_writeValue_of_keeps (p : Params) (m : Cells) {slot i idx : Nat} (v : Value)
    (h : i = idx → idx = p.regmap.crcValue) : readCells p (writeValue p m slot i v) slot idx = readCells p m slot idx := by
  by_cases hi : i = idx
  · rw [hi, h hi, writeValue_crcValue]
  · exact readCells_writeValue_ne p m v (by simp [Ne.symm hi])

theorem lastWrite_eq_none_iff {idx : Nat} {ws : List (Nat × Value)} : lastWrite idx ws = none ↔ ∀ w ∈ ws, w.1 ≠ idx := by
  induction ws with
  | nil => simp [lastWrite]
  | cons w ws ih =>
    rw [lastWrite, List.forall_mem_cons, ← ih]
    cases lastWrite idx ws <;> simp

/-- Writes none of which sets an index leave what it reads. -/
theorem readCells_writeAll_of_keeps (p : Params) {slot idx : Nat} {ws : List (Nat × Value)}
    (h : ∀ w ∈ ws, w.1 = idx → idx = p.regmap.crcValue) (m : Cells) :
    readCells p (writeAll p m slot ws) slot idx = readCells p m slot idx := by
  induction ws generalizing m with
  | nil => rfl
  | cons w ws ih =>
    obtain ⟨hw, hws⟩ := List.forall_mem_cons.mp h
    rw [writeAll, ih hws, readCells_writeValue_of_keeps p m w.2 hw]

/-- The last value written to an index is what it reads then (42_bus_master.md R262). -/
theorem readCells_writeAll_of_lastWrite (p : Params) {slot idx : Nat} (hs : slot < 256) {ws : List (Nat × Value)}
    (hws : ∀ w ∈ ws, w.1 < 256 ∧ (p.regmap.find w.1).isSome = true) (hne : idx ≠ p.regmap.crcValue) {v : Value}
    (hv : lastWrite idx ws = some v) (m : Cells) : readCells p (writeAll p m slot ws) slot idx = some v := by
  induction ws generalizing m with
  | nil => cases hv
  | cons w ws ih =>
    obtain ⟨i, u⟩ := w
    obtain ⟨⟨hi, hd⟩, hws⟩ := List.forall_mem_cons.mp hws
    rw [writeAll]
    cases hlast : lastWrite idx ws with
    | some u' =>
      rw [lastWrite, hlast] at hv
      exact ih hws (hlast.trans hv) _
    | none =>
      have hnot := lastWrite_eq_none_iff.mp hlast
      rw [lastWrite, hlast] at hv
      obtain ⟨rfl, rfl⟩ : i = idx ∧ u = v := by simpa using hv
      rw [readCells_writeAll_of_keeps p fun w hw e => absurd e (hnot w hw), writeValue_of_ne hne]
      exact readCells_writeCells_same p m u hs hi hd

/-- Settles O10: the last write of an index stays (`readCells_writeAll_of_lastWrite`), and a write keeps the other indices, the
other slots and CRCValue (`readCells_writeAll_of_keeps`, `readCells_writeAll_of_slot_ne`). -/
theorem mirrorWritesLastValueWins : Obligations.MirrorWritesLastValueWins := by
  intro p m slot ws hs hws
  refine ⟨fun idx v hne hv => readCells_writeAll_of_lastWrite p hs hws hne hv m, fun idx h => ?_,
    fun slot' idx' hne => readCells_writeAll_of_slot_ne p hne idx' ws m⟩
  refine readCells_writeAll_of_keeps p (fun w hw e => ?_) m
  obtain hnone | hcrc := h
  · exact absurd e (lastWrite_eq_none_iff.mp hnone w hw)
  · exact hcrc

/-! ## The module map -/

/-- The bits of a mask are five for each kind (30_encoding.md R156). -/
theorem range_fifty : List.range 50 = (List.range 10).flatMap fun k => [0, 1, 2, 3, 4].map (5 * k + ·) := by decide

/-- The table's k-th pair is the k-th kind's (30_encoding.md R156). -/
theorem moduleTable_eq (bk : Banks) :
    moduleTable bk = (List.range 10).map fun k => (5 * k, bk.base (allKinds.getD k .button)) := rfl

/-- The populated slots of kind k are those of its set bits, 5k to 5k + 4 (42_bus_master.md R311). -/
theorem kindSlots_eq (bk : Banks) (mask k : Nat) :
    kindSlots mask (5 * k) (bk.base (allKinds.getD k .button))
      = (([0, 1, 2, 3, 4].map (5 * k + ·)).filter fun i => mask.testBit i).map fun i =>
          bk.base (allKinds.getD (i / 5) .button) + (i - 5 * (i / 5)) := by
  rw [List.filter_map, List.map_map]
  refine List.map_congr_left fun j hj => ?_
  have hlt : j < 5 := by
    have := List.mem_of_mem_filter hj
    simp only [List.mem_cons, List.not_mem_nil, or_false] at this
    omega
  have hdiv : (5 * k + j) / 5 = k := by omega
  simp [hdiv]

/-- Settles O41: the map goes through the kinds, and the bits 0..49 are the kinds' (`range_fifty`, `kindSlots_eq`). -/
theorem moduleMapFollowsTheBits : Obligations.ModuleMapFollowsTheBits := by
  intro bk mask
  rw [modmap, moduleTable_eq, range_fifty, List.flatMap_map, List.filter_flatMap, List.map_flatMap]
  exact List.flatMap_congr fun k _ => kindSlots_eq bk mask k

end Sys2Proof.Machine
end

-- ==== How a host operation fails and ends (42_bus_master.md) ====
section
/-! PROOFS. A host operation fails with the first error of its checks, and otherwise ends with what its body leaves; the
registers a body keeps, as a relation that composes; and from these the table operations (O28, O29), the master's baud rate
(O43) and the closed port (O55). -/

namespace Sys2Proof.Machine

/-! ## Failing with the first error -/

/-- No check looks at what acceptance writes: `op`, the frame buffers and the phase (42_bus_master.md R258). -/
@[simp] theorem hostCheck_accept (i : Instr) (s : State) (req : Option HostReq) :
    hostCheck i (s.accept req) = hostCheck i s := by
  cases i <;> rfl

/-- An operation fails with the first error of its checks (60_exceptions.md R377, R378). -/
theorem failsWith_of_hostCheck {i : Instr} {req : HostReq} {s : State} {e : ErrorCode} (h : hostRequest i = some req)
    (hc : hostCheck i s = some e) : failsWith i s req e := by
  have hrun : runOp i (hostCheck i) (hostBody s.cfg i) s = (s.accept (some req)).raiseError e := by
    rw [← h]
    exact runOp_of_error ((hostCheck_accept ..).trans hc)
  refine ⟨_, exec_eq_runOp h s, ?_⟩
  rw [hrun]
  exact accept_raiseError_eq s (some req) e

/-- An operation whose checks pass ends with the result of its body (42_bus_master.md R258). -/
theorem exec_of_hostCheck_none {i : Instr} {req : HostReq} {s : State} (h : hostRequest i = some req)
    (hc : hostCheck i s = none) :
    exec i s = .next ((hostBody s.cfg i (s.accept (some req))).1.finish (hostBody s.cfg i (s.accept (some req))).2) := by
  rw [exec_eq_runOp h, runOp_of_none ((hostCheck_accept ..).trans hc), h]

theorem checkId_of_out_of_range {id : Int} (h : id < 0 ∨ 255 < id) (b : Bool) : checkId id b = some .idRange := if_pos h

theorem checkId_broadcast : checkId 255 false = some .broadcast := rfl

theorem checkId_of_unicast {id : Int} (h0 : 0 ≤ id) (h254 : id ≤ 254) (b : Bool) : checkId id b = none :=
  (checkId_eq_none_iff id b).mpr ⟨h0, by omega, fun h => by omega⟩

theorem checkAttached_of_not {s : State} {id : Int} (h : s.attached id.toNat = false) :
    checkAttached s id = some .notAttached := by rw [checkAttached, h]; rfl

theorem checkAttached_of_attached {s : State} {id : Int} (h : s.attached id.toNat = true) :
    checkAttached s id = none := by rw [checkAttached, h]; rfl

theorem checkPort_of_closed {s : State} (h : s.portOpen = false) : checkPort s = some .portClosed := by
  rw [checkPort, h]; rfl

theorem checkByte_of_out_of_range {v : Int} (h : v < 0 ∨ 255 < v) : checkByte v = some .valueRange := by
  obtain h | h := h <;> simp [checkByte, h]

theorem checkBaud_of_out_of_range {baud : Int} (h : baud < 3053 ∨ 12500000 < baud) :
    checkBaud baud = some .baudRange := by
  have hrange : (decide (baud < baudMin) || decide ((baudMax : Int) < baud)) = true := by
    simp only [Bool.or_eq_true, decide_eq_true_eq]
    exact h
  rw [checkBaud, hrange]
  rfl

/-- The errors of an operation on one device, first failing check first (42_bus_master.md R253, R254, R256). -/
theorem unicastChecks_of_hostCheck {i : Instr} {s : State} {req : HostReq} {id : Int} (h : hostRequest i = some req)
    (hc : hostCheck i s = checkUnicast s id) : unicastChecks i s req id := by
  refine ⟨fun hr => ?_, fun hb => ?_, fun h0 h254 ha => ?_, fun h0 h254 ha hp => ?_⟩ <;>
    refine failsWith_of_hostCheck h (hc.trans ?_) <;> rw [checkUnicast]
  · rw [checkId_of_out_of_range hr, firstError_cons_some]
  · rw [hb, checkId_broadcast, firstError_cons_some]
  · rw [checkId_of_unicast h0 h254, checkAttached_of_not ha, firstError_cons_none, firstError_cons_some]
  · rw [checkId_of_unicast h0 h254, checkAttached_of_attached ha, checkPort_of_closed hp, firstError_cons_none,
      firstError_cons_none, firstError_cons_some]

/-- A ready device passes the checks of an operation on one device (42_bus_master.md R253, R254, R256). -/
theorem State.ready.checkUnicast {s : State} {id : Int} (h : s.ready id) : checkUnicast s id = none := by
  obtain ⟨h0, h255, ha, hp⟩ := h
  exact (checkUnicast_eq_none_iff s id).mpr ⟨h0, by omega, ha, hp⟩

theorem State.ready.toNat_lt {s : State} {id : Int} (h : s.ready id) : id.toNat < bcast := by
  obtain ⟨h0, h255, -, -⟩ := h
  unfold bcast
  omega

/-! ## The registers a body keeps -/

/-- `t` comes after `s` within one operation and has the same engine registers but `ack_size`, and the same at the ports
(10_state.md R48 to R50, R53, R54; logs 3 and 6). -/
structure BodyKept (s t : State) : Prop extends EngineKept s t where
  crcOut : t.crcOut = s.crcOut
  pending : t.pending = s.pending
  internal : t.internal = s.internal

theorem BodyKept.refl (s : State) : BodyKept s s := ⟨.refl s, rfl, rfl, rfl⟩

theorem BodyKept.trans {s t u : State} (h : BodyKept s t) (h' : BodyKept t u) : BodyKept s u :=
  ⟨h.toEngineKept.trans h'.toEngineKept, h'.crcOut.trans h.crcOut, h'.pending.trans h.pending,
    h'.internal.trans h.internal⟩

theorem bodyKept_emit (s : State) (e : Event) : BodyKept s (s.emit e) := ⟨engineKept_emit s e, rfl, rfl, rfl⟩

theorem bodyKept_install (s : State) (slot id : Nat) (fam : Byte) : BodyKept s (s.install slot id fam) :=
  ⟨engineKept_install .., rfl, rfl, rfl⟩

theorem bodyKept_writeMirror (s : State) (slot : Nat) (ws : List (Nat × Value)) : BodyKept s (s.writeMirror slot ws) :=
  ⟨engineKept_writeMirror .., rfl, rfl, rfl⟩

theorem bodyKept_request (s : State) (t : Byte) (c : Command) (P : List Byte) (ack : Nat) :
    BodyKept s ((s.setPhase .encode).encode t c P ack).send :=
  ⟨engineKept_request s t c P ack, by simp, by simp, by simp⟩

theorem bodyKept_requestHdr (s : State) (t : Nat) (c : Command) (second : Bool) :
    BodyKept s (s.requestHdr t c second) := bodyKept_request s (BitVec.ofNat 8 t) c [] (hdrAck second c)

theorem bodyKept_readReply (s : State) (n : Nat) : BodyKept s (s.readReply n) := ⟨engineKept_readReply .., rfl, rfl, rfl⟩

theorem bodyKept_crcReg (s : State) (r : Word32) : BodyKept s { s with crcReg := r } :=
  ⟨⟨.of_eq rfl rfl rfl, rfl, rfl, rfl, rfl, rfl⟩, rfl, rfl, rfl⟩

theorem bodyKept_ackProtocol (s : State) : BodyKept s s.ackProtocol.1 :=
  ⟨engineKept_ackProtocol s, s.ackProtocol_crcOut, s.ackProtocol_pending, s.ackProtocol_internal⟩

/-- An operation whose body keeps the registers keeps them, and ends in IDLE (42_bus_master.md R258). -/
theorem BodyKept.registersKept {s u : State} {req : Option HostReq} (h : BodyKept (s.accept req) u) (r : Result) :
    registersKept s (u.finish r) :=
  ⟨h.cfg, h.baudRate, h.settleDelay, h.lastScanned, h.portOpen, h.timeoutSel, h.crcOut, h.pending, h.internal, rfl⟩

/-- An operation whose body stays within it ends as the one accepted, with the body's result (10_state.md R57, R58). -/
theorem Continues.ended {s u : State} {req : HostReq} (h : Continues (s.accept (some req)) u) (r : Result) :
    ended (u.finish r) req r := ⟨h.op, rfl⟩

/-! ## Table operations -/

/-- A slot replaced by `fresh(id, fam)`, index by index (10_state.md R45). -/
theorem State.read_install_same (s : State) {slot idx : Nat} (id : Nat) (fam : Byte) (hs : slot < 256) (hi : idx < 256) :
    (s.install slot id fam).read slot idx = (s.cfg.regmap.find idx).map fun d =>
      if idx = 1 then .scalar id else if idx = 2 then .scalar fam.toNat else d.resetValue := by
  refine (readCells_installFresh_same s.cfg s.dt id fam hs hi).trans (Option.map_congr fun d hd => ?_)
  rw [freshValue, RegMap.index_of_find hd]
  rfl

theorem State.read_install_ne (s : State) {slot slot' : Nat} (idx id : Nat) (fam : Byte) (h : slot' ≠ slot) :
    (s.install slot id fam).read slot' idx = s.read slot' idx := readCells_installFresh_ne s.cfg s.dt idx id fam h

/-- Settles O28: the checks by their first error, and the mirrors by `State.read_install_same` and `State.read_install_ne`. -/
theorem attachInstallsAFreshMirror : Obligations.AttachInstallsAFreshMirror := by
  intro s id family
  have hfails : ∀ {e}, checkAttach id family = some e → failsWith (.attach id family) s _ e :=
    fun hc => failsWith_of_hostCheck rfl hc
  refine ⟨fun hr => hfails ?_, fun hb => hfails ?_, fun h0 h254 => ⟨fun hf => hfails ?_, fun hf0 hf255 => ?_⟩⟩
  · rw [checkAttach, checkId_of_out_of_range hr, firstError_cons_some]
  · rw [checkAttach, hb, checkId_broadcast, firstError_cons_some]
  · rw [checkAttach, checkId_of_unicast h0 h254, checkByte_of_out_of_range hf, firstError_cons_none, firstError_cons_some]
  · have hnone : hostCheck (.attach id family) s = none := by
      rw [hostCheck, checkAttach, checkId_of_unicast h0 h254, (checkByte_eq_none_iff family).mpr ⟨hf0, hf255⟩]
      rfl
    have hkept := bodyKept_install (s.accept (some ⟨0x01#8, [.int id, .int family]⟩)) id.toNat id.toNat
      (BitVec.ofInt 8 family)
    refine ⟨_, exec_of_hostCheck_none rfl hnone, hkept.toContinues.ended _, fun idx hi => ?_, fun slot idx hne => ?_,
      rfl, rfl, rfl, ⟨rfl, rfl⟩, hkept.registersKept _⟩
    · have hbyte : ((BitVec.ofInt 8 family).toNat : Int) = family := toNat_byteOfInt hf0 (by omega)
      refine (State.read_install_same (s.accept _) id.toNat (BitVec.ofInt 8 family) (by omega) hi).trans ?_
      rw [hbyte, Int.toNat_of_nonneg h0]
      rfl
    · exact State.read_install_ne (s.accept _) idx id.toNat (BitVec.ofInt 8 family) hne

/-- Settles O29, as O28: the sentinel is `fresh(255, P_SENTINEL_FAMILY)`. -/
theorem detachInstallsTheSentinel : Obligations.DetachInstallsTheSentinel := by
  intro s id
  refine ⟨fun hr => failsWith_of_hostCheck rfl (checkId_of_out_of_range hr true), fun h0 h255 => ?_⟩
  have hnone : hostCheck (.detach id) s = none := (checkId_eq_none_iff id true).mpr ⟨h0, h255, fun _ => rfl⟩
  have hkept := bodyKept_install (s.accept (some ⟨0x02#8, [.int id]⟩)) id.toNat bcast s.cfg.sentinelFamily
  refine ⟨_, exec_of_hostCheck_none rfl hnone, hkept.toContinues.ended _, fun idx hi => ?_, fun slot idx hne => ?_,
    rfl, rfl, rfl, ⟨rfl, rfl⟩, hkept.registersKept _⟩
  · exact State.read_install_same (s.accept _) bcast s.cfg.sentinelFamily (by omega) hi
  · exact State.read_install_ne (s.accept _) idx bcast s.cfg.sentinelFamily hne

/-! ## The master's baud rate -/

/-- Settles O43: one check, and a body that writes the rate it has checked and that rate's delay (`settleOf_eq`). -/
theorem masterBaudReopensThePort : Obligations.MasterBaudReopensThePort := by
  intro s baud
  refine ⟨fun hr => failsWith_of_hostCheck rfl (checkBaud_of_out_of_range hr), fun hmin hmax => ?_⟩
  have hnone : hostCheck (.updateMasterBaudrate baud) s = none := (checkBaud_eq_none_iff baud).mpr ⟨hmin, hmax⟩
  have hcast : ((baud.toNat : Nat) : Int) = baud := Int.toNat_of_nonneg (by omega)
  have hsettle : settleOf baud.toNat = 30 / (baud : Rat) := by
    rw [settleOf_eq, ← Int.cast_natCast (R := Rat), hcast]
  exact ⟨_, exec_of_hostCheck_none rfl hnone, ⟨rfl, rfl⟩, rfl, hcast, hsettle, rfl, rfl, rfl, rfl, ⟨rfl, rfl⟩,
    rfl, rfl, rfl, rfl, rfl, rfl, rfl, rfl, rfl, rfl⟩

/-! ## The closed port -/

theorem checkGetter_eq_none_iff (s : State) (k : ModuleKind) (id m : Int) :
    checkGetter s k id m = none ↔ checkModule m = none ∧ checkGetVariables s id [moduleIndex s.cfg k m] = none := by
  simp [checkGetter, firstError_eq_none_iff]

/-- A transmitting operation whose checks pass has found the port open (42_bus_master.md R256). -/
theorem portOpen_of_hostCheck_none {i : Instr} {req : HostReq} {s : State} (h : hostRequest i = some req)
    (hattach : ∀ id family, i ≠ .attach id family) (hdetach : ∀ id, i ≠ .detach id)
    (hbaud : ∀ baud, i ≠ .updateMasterBaudrate baud) (hc : hostCheck i s = none) : s.portOpen = true := by
  have hget : ∀ id indices, checkGetVariables s id indices = none → s.portOpen = true := fun id indices hc => by
    obtain ⟨-, -, -, -, -, -, -, hopen⟩ := (checkGetVariables_eq_none_iff s id indices).mp hc
    exact hopen
  have hset : ∀ id pairs, checkSetVariables s id pairs = none → s.portOpen = true := fun id pairs hc => by
    obtain ⟨-, -, -, -, -, -, hopen⟩ := (checkSetVariables_eq_none_iff s id pairs).mp hc
    exact hopen
  cases i
  case attach id family => exact absurd rfl (hattach id family)
  case detach id => exact absurd rfl (hdetach id)
  case updateMasterBaudrate baud => exact absurd rfl (hbaud baud)
  case setVariables => exact hset _ _ hc
  case getVariables | getDriverInfo => exact hget _ _ hc
  case setVariablesSync index groups =>
    obtain ⟨-, -, -, hopen⟩ := (checkSetVariablesSync_eq_none_iff s index groups).mp hc
    exact hopen
  case ping id | reboot id | hardReset id | eepromWrite id _ | tune id | resetEncoder id | enterBootloader id
      | scanModules id =>
    obtain ⟨-, -, -, hopen⟩ := (checkUnicast_eq_none_iff s id).mp hc
    exact hopen
  case scan => simpa [hostCheck, checkPort] using hc
  case updateDriverBaudrate id baud =>
    obtain ⟨-, -, -, -, -, hopen⟩ := (checkDriverBaud_eq_none_iff s id baud).mp hc
    exact hopen
  case getButton | getLight | getJoystick | getDistance | getQtr | getPotentiometer | getImu =>
    exact hget _ _ ((checkGetter_eq_none_iff ..).mp hc).2
  case setBuzzer | setServo | setRgb =>
    obtain ⟨-, -, -, -, hc⟩ := (checkSetter_eq_none_iff ..).mp hc
    exact hset _ _ hc
  all_goals cases h

/-- Settles O55: on a closed port the checks fail (`portOpen_of_hostCheck_none`), and an error appends no event. -/
theorem closedPortSendsNothing : Obligations.ClosedPortSendsNothing := by
  intro s t i req hclosed h he hattach hdetach hbaud
  obtain ⟨e, rfl⟩ | ⟨hc, -⟩ := exec_host_cases h he
  · exact ⟨⟨e, rfl⟩, rfl, hclosed⟩
  · have hopen := portOpen_of_hostCheck_none h hattach hdetach hbaud ((hostCheck_accept ..).symm.trans hc)
    rw [hclosed] at hopen
    cases hopen

end Sys2Proof.Machine
end

-- ==== Header-only commands and the module scan (42_bus_master.md) ====
section
/-! PROOFS. What one request and one reply leave: the frame, the acknowledgment size, the events and the bus; and from these the
header-only commands (O34 to O37) and `scan_modules` (O40). -/

namespace Sys2Proof.Machine

/-! ## Requests and replies -/

theorem toNat_slotByte {id : Nat} (h : id < 256) : (BitVec.ofNat 8 id).toNat = id := by
  rw [BitVec.toNat_ofNat]
  omega

/-- The frame an encode seals is the request's own (41_codec.md R201, R202). -/
theorem sealFrame_frameBody (s : State) {id : Nat} (hid : id < 256) (c : Command) (P : List Byte) :
    sealFrame (s.frameBody (BitVec.ofNat 8 id) c P) = requestFrame s id c P := by
  rw [State.frameBody, toNat_slotByte hid]
  rfl

/-- A request's frame depends on the configuration and the mirrors alone (41_codec.md R201). -/
theorem requestFrame_congr {s t : State} (hcfg : t.cfg = s.cfg) (hdt : t.dt = s.dt) (id : Nat) (c : Command)
    (P : List Byte) : requestFrame t id c P = requestFrame s id c P := by
  simp only [requestFrame, hcfg, State.mirrorByte_congr hcfg hdt]

@[simp] theorem requestFrame_finish (s : State) (r : Result) (id : Nat) (c : Command) (P : List Byte) :
    requestFrame (s.finish r) id c P = requestFrame s id c P := requestFrame_congr rfl rfl id c P

theorem requestFrame_accept (s : State) (req : Option HostReq) (id : Nat) (c : Command) (P : List Byte) :
    requestFrame (s.accept req) id c P = requestFrame s id c P := requestFrame_congr rfl rfl id c P

@[simp] theorem hdrFrame_finish (s : State) (r : Result) (id : Nat) (c : Command) :
    hdrFrame (s.finish r) id c = hdrFrame s id c := requestFrame_finish s r id c []

@[simp] theorem hdrFrame_accept (s : State) (req : Option HostReq) (id : Nat) (c : Command) :
    hdrFrame (s.accept req) id c = hdrFrame s id c := requestFrame_accept s req id c []

@[simp] theorem hdrFrame_emit (s : State) (e : Event) (id : Nat) (c : Command) :
    hdrFrame (s.emit e) id c = hdrFrame s id c := requestFrame_congr rfl rfl id c []

@[simp] theorem hdrFrame_requestHdr (s : State) (t : Nat) (c' : Command) (second : Bool) (id : Nat) (c : Command) :
    hdrFrame (s.requestHdr t c' second) id c = hdrFrame s id c :=
  requestFrame_congr (bodyKept_requestHdr s t c' second).cfg (s.requestHdr_dt t c' second) id c []

/-- One request is one frame sent, with its settle delay, and no read (42_bus_master.md R257). -/
theorem sentOne_request (s : State) {id : Nat} (hid : id < 256) (c : Command) (P : List Byte) (ack : Nat) :
    sentOne s ((s.setPhase .encode).encode (BitVec.ofNat 8 id) c P ack).send (requestFrame s id c P) ack := by
  simp [sentOne, busKept, sealFrame_frameBody s hid]

theorem sentOne_requestHdr (s : State) {id : Nat} (hid : id < 256) (c : Command) (second : Bool) :
    sentOne s (s.requestHdr id c second) (hdrFrame s id c) (hdrAck second c) := sentOne_request s hid c [] _

theorem busKept.ofBody {s u : State} {req : Option HostReq} (h : busKept (s.accept req) u) (r : Result) :
    busKept s (u.finish r) := h

/-- What a body has sent, the operation has (42_bus_master.md R258). -/
theorem sentOne.ofBody {s u : State} {req : Option HostReq} {F : List Byte} {ack : Nat} (h : sentOne (s.accept req) u F ack)
    (r : Result) : sentOne s (u.finish r) F ack := h

/-- What a body has exchanged, the operation has (42_bus_master.md R258). -/
theorem exchanged.ofBody {s u : State} {req : Option HostReq} {F L : List Byte} {n : Nat}
    (h : exchanged (s.accept req) u F n L) (r : Result) : exchanged s (u.finish r) F n L := h

/-- A request does not ask the bus agent for anything, so the next read is answered as before it (20_memory.md R96). -/
theorem sentOne.answer {s t : State} {F : List Byte} {ack : Nat} (h : sentOne s t F ack) (n : Nat) :
    t.answer n = s.answer n := by
  obtain ⟨-, -, -, hreplies, hreads⟩ := h
  exact State.answer_congr hreplies hreads n

/-- One request and the read of its reply by the acknowledgment protocol (42_bus_master.md R257, R280). -/
theorem sentOne.ackProtocol {s t : State} {F : List Byte} {n : Nat} (h : sentOne s t F n) :
    exchanged s t.ackProtocol.1 F n (s.answer n) := by
  have hanswer := h.answer n
  obtain ⟨htx, hack, htrace, hreplies, hreads⟩ := h
  simp [exchanged, htx, hack, htrace, hreplies, hreads, hanswer]

/-! ## The acknowledgment protocol's answer -/

/-- A reply that is not accepted fails and writes no mirror (42_bus_master.md R281, R282). -/
theorem State.ackProtocol_of_not_accepted {s : State} (h : accepted s.ackSize (s.answer s.ackSize) = false) :
    s.ackProtocol.2 = .fail ∧ s.ackProtocol.1.dt = s.dt := by
  rw [State.ackProtocol_eq]
  obtain e | e := classifyReply_of_not_accepted (rm := s.cfg.regmap) h <;> simp [e]

/-- An accepted reply that decodes is OK, and the mirrors are those decoded (42_bus_master.md R283, 41_codec.md R231, R232). -/
theorem State.ackProtocol_of_decodedTable_some {s : State} (h : accepted s.ackSize (s.answer s.ackSize) = true) {m : Cells}
    (hm : decodedTable s.cfg s.dt (s.answer s.ackSize) = some m) :
    s.ackProtocol.2 = .ok ∧ s.ackProtocol.1.dt = m := by
  rw [State.ackProtocol_eq, classifyReply_of_accepted h]
  unfold decodedTable at hm
  by_cases hsize : (frameByte (s.answer s.ackSize) 3).toNat ≤ minFrame
  · rw [if_pos hsize] at hm
    simpa [hsize] using hm
  · rw [if_neg hsize] at hm
    cases hparse : parsePayload s.cfg.regmap (framePayload (s.answer s.ackSize)) with
    | none => simp [hparse] at hm
    | some ws =>
      by_cases hslot : (frameByte (s.answer s.ackSize) 1).toNat = bcast <;> simpa [hsize, hparse, hslot] using hm

/-- An accepted reply that breaks the decode grammar is FRAMING and writes no mirror (41_codec.md R233). -/
theorem State.ackProtocol_of_decodedTable_none {s : State} (h : accepted s.ackSize (s.answer s.ackSize) = true)
    (hm : decodedTable s.cfg s.dt (s.answer s.ackSize) = none) :
    s.ackProtocol.2 = .framing ∧ s.ackProtocol.1.dt = s.dt := by
  rw [State.ackProtocol_eq, classifyReply_of_accepted h]
  unfold decodedTable at hm
  by_cases hsize : (frameByte (s.answer s.ackSize) 3).toNat ≤ minFrame
  · simp [hsize] at hm
  · rw [if_neg hsize] at hm
    cases hparse : parsePayload s.cfg.regmap (framePayload (s.answer s.ackSize)) with
    | none => simp [hsize]
    | some ws => by_cases hslot : (frameByte (s.answer s.ackSize) 1).toNat = bcast <;> simp [hparse, hslot] at hm

/-- A reply of ten bytes or fewer carries no pair (42_bus_master.md R269). -/
theorem decodedTable_of_length_le (p : Params) (m : Cells) {L : List Byte} (h : L.length ≤ 10) :
    decodedTable p m L = some m := by
  have hpayload : framePayload L = [] := by
    apply List.eq_nil_of_length_eq_zero
    simp [framePayload]
    omega
  simp [decodedTable, hpayload, parsePayload, parseFuel]

/-- With ten bytes expected the protocol answers OK exactly for an accepted reply (42_bus_master.md R269, R281, R282). -/
theorem State.ackProtocol_ok_iff {s : State} (hle : s.ackSize ≤ 10) :
    s.ackProtocol.2 = .ok ↔ accepted s.ackSize (s.answer s.ackSize) = true := by
  cases h : accepted s.ackSize (s.answer s.ackSize) with
  | false => simp [State.ackProtocol_of_not_accepted h]
  | true =>
    have hlen := (s.length_answer_le s.ackSize).trans hle
    simp [State.ackProtocol_of_decodedTable_some h (decodedTable_of_length_le s.cfg s.dt hlen)]

/-! ## Header-only commands -/

/-- All a ready device's header-only command without a reply does (42_bus_master.md R270). -/
theorem exec_of_bodyCommand {i : Instr} {req : HostReq} {s : State} {id : Int} {c : Command} (hreq : hostRequest i = some req)
    (hcheck : hostCheck i s = checkUnicast s id)
    (hbody : hostBody s.cfg i (s.accept (some req)) = bodyCommand id.toNat c (s.accept (some req)))
    (hack : hdrAck false c = 0) (hready : s.ready id) :
    ∃ t, exec i s = .next t ∧ ended t req .done ∧ t.dt = s.dt ∧ sentOne s t (hdrFrame s id.toNat c) 0
      ∧ registersKept s t := by
  have hid := hready.toNat_lt
  have hkept := bodyKept_requestHdr (s.accept (some req)) id.toNat c false
  have hsent := sentOne_requestHdr (s.accept (some req)) (id := id.toNat) (by unfold bcast at hid; omega) c false
  rw [exec_of_hostCheck_none hreq (hcheck.trans hready.checkUnicast), hbody, bodyCommand]
  rw [hack, hdrFrame_accept] at hsent
  exact ⟨_, rfl, hkept.toContinues.ended _, by simp, hsent.ofBody _, hkept.registersKept _⟩

/-- All a ready device's header-only command with a ten-byte reply does (42_bus_master.md R269, R272). -/
theorem exec_of_bodyAcked {i : Instr} {req : HostReq} {s : State} {id : Int} {c : Command} (hreq : hostRequest i = some req)
    (hcheck : hostCheck i s = checkUnicast s id)
    (hbody : hostBody s.cfg i (s.accept (some req)) = bodyAcked id.toNat c (s.accept (some req)))
    (hack : hdrAck false c = 10) (hready : s.ready id) :
    ∃ t, exec i s = .next t ∧ ended t req (.bool (accepted 10 (s.answer 10))) ∧ t.dt = s.dt
      ∧ exchanged s t (hdrFrame s id.toNat c) 10 (s.answer 10) ∧ registersKept s t := by
  have hid := hready.toNat_lt
  have hsent := sentOne_requestHdr (s.accept (some req)) (id := id.toNat) (by unfold bcast at hid; omega) c false
  have hsize := State.requestHdr_ackSize (s.accept (some req)) id.toNat c false
  rw [hack] at hsent hsize
  rw [hdrFrame_accept] at hsent
  have hkept := (bodyKept_requestHdr (s.accept (some req)) id.toNat c false).trans
    (bodyKept_ackProtocol _)
  have hanswer : ((s.accept (some req)).requestHdr id.toNat c false).answer 10 = s.answer 10 := hsent.answer 10
  have hresult : (bodyAcked id.toNat c (s.accept (some req))).2 = .bool (accepted 10 (s.answer 10)) := by
    have hok := State.ackProtocol_ok_iff hsize.le
    rw [hsize, hanswer] at hok
    simp only [bodyAcked, Result.bool.injEq]
    exact Bool.eq_iff_iff.mpr (beq_iff_eq.trans hok)
  rw [exec_of_hostCheck_none hreq (hcheck.trans hready.checkUnicast), hbody, hresult]
  exact ⟨_, rfl, hkept.toContinues.ended _, bodyAcked_dt .., hsent.ackProtocol.ofBody _, hkept.registersKept _⟩

/-- Settles O34: each of the four operations is `bodyCommand` of its Command. -/
theorem plainCommandsSendOneFrame : Obligations.PlainCommandsSendOneFrame := by
  intro s id e he
  have hform : hostRequest e.1 = some e.2.1 ∧ hostCheck e.1 s = checkUnicast s id
      ∧ hostBody s.cfg e.1 (s.accept (some e.2.1)) = bodyCommand id.toNat e.2.2 (s.accept (some e.2.1))
      ∧ hdrAck false e.2.2 = 0 := by
    simp only [List.mem_cons, List.not_mem_nil, or_false] at he
    obtain rfl | rfl | rfl | rfl := he <;> exact ⟨rfl, rfl, rfl, rfl⟩
  obtain ⟨hreq, hcheck, hbody, hack⟩ := hform
  exact ⟨unicastChecks_of_hostCheck hreq hcheck, exec_of_bodyCommand hreq hcheck hbody hack⟩

/-- Settles O35: `ping` is `bodyAcked` of PING. -/
theorem pingAnswersBool : Obligations.PingAnswersBool := fun _ _ =>
  ⟨unicastChecks_of_hostCheck rfl rfl, exec_of_bodyAcked rfl rfl rfl rfl⟩

/-- Settles O36: `eeprom_write` is `bodyCommand` of EEPROM_WRITE, or `bodyAcked` of EEPROM_WRITE_ACK. -/
theorem eepromWriteSendsOneFrame : Obligations.EepromWriteSendsOneFrame := fun _ _ =>
  ⟨fun _ => unicastChecks_of_hostCheck rfl rfl,
    fun hready => ⟨exec_of_bodyCommand rfl rfl rfl rfl hready, exec_of_bodyAcked rfl rfl rfl rfl hready⟩⟩

/-- Settles O37: one request, then the port is closed. -/
theorem enterBootloaderClosesThePort : Obligations.EnterBootloaderClosesThePort := by
  intro s id
  refine ⟨unicastChecks_of_hostCheck rfl rfl, fun hready => ?_⟩
  have hid := hready.toNat_lt
  have hsent := sentOne_requestHdr (s.accept (some ⟨0x0C#8, [.int id]⟩)) (id := id.toNat)
    (by unfold bcast at hid; omega) .blJump false
  rw [hdrFrame_accept] at hsent
  obtain ⟨htx, hack, htrace, hbus⟩ := hsent
  have hkept := bodyKept_requestHdr (s.accept (some ⟨0x0C#8, [.int id]⟩)) id.toNat .blJump false
  have hnone : hostCheck (.enterBootloader id) s = none := hready.checkUnicast
  have hreq : hostRequest (.enterBootloader id) = some ⟨0x0C#8, [.int id]⟩ := rfl
  have hdt := State.requestHdr_dt (s.accept (some ⟨0x0C#8, [.int id]⟩)) id.toNat .blJump false
  rw [exec_of_hostCheck_none hreq hnone]
  simp only [hostBody]
  generalize (s.accept (some ⟨0x0C#8, [.int id]⟩)).requestHdr id.toNat .blJump false = u at *
  refine ⟨_, rfl, ⟨hkept.op, rfl⟩, hdt, htx, hack, ?_, rfl, hbus, hkept.cfg, hkept.baudRate, hkept.settleDelay,
    hkept.lastScanned, rfl, hkept.timeoutSel, hkept.crcOut, hkept.pending, hkept.internal, rfl⟩
  rw [State.finish_trace, State.closePort_trace, htrace]
  simp

/-! ## The module scan -/

/-- The two issuances of MODULE_SCAN with the warm-up between them, and the read (42_bus_master.md R310). -/
theorem moduleScanReply_effect (s : State) {id : Nat} (hid : id < 256) :
    (moduleScanReply id s).txbuf = hdrFrame s id .moduleScan ∧ (moduleScanReply id s).rxbuf = s.answer 18
      ∧ (moduleScanReply id s).trace = s.trace ++ [.tx (hdrFrame s id .moduleScan), .settle s.baudRate, .delay .warmup,
          .tx (hdrFrame s id .moduleScan), .settle s.baudRate, .rx 18 (s.answer 18)]
      ∧ (moduleScanReply id s).busReplies = s.busReplies.tail ∧ (moduleScanReply id s).busReads = s.busReads + 1 := by
  have hwarm := sentOne_requestHdr s hid .moduleScan false
  have hscan := sentOne_requestHdr ((s.requestHdr id .moduleScan false).emit (.delay .warmup)) hid .moduleScan true
  have hanswer := hscan.answer 18
  rw [State.emit_answer, hwarm.answer] at hanswer
  rw [hdrFrame_emit, hdrFrame_requestHdr] at hscan
  obtain ⟨-, -, htrace, hreplies, hreads⟩ := hwarm
  obtain ⟨htx', -, htrace', hreplies', hreads'⟩ := hscan
  have hbaud := (engineKept_requestHdr s id .moduleScan false).baudRate
  rw [State.emit_trace, htrace, State.emit_baudRate, hbaud] at htrace'
  rw [State.emit_busReplies, hreplies] at hreplies'
  rw [State.emit_busReads, hreads] at hreads'
  simp [moduleScanReply, modscanResp, htx', htrace', hreplies', hreads', hanswer]

theorem bodyKept_moduleScanReply (id : Nat) (s : State) : BodyKept s (moduleScanReply id s) :=
  (bodyKept_requestHdr ..).trans <| (bodyKept_emit ..).trans <| (bodyKept_requestHdr ..).trans (bodyKept_readReply ..)

/-- The result of `scan_modules` is the indices of the mask of an accepted reply, and None for another
(42_bus_master.md R310). -/
theorem moduleScanResult_result (s : State) : (moduleScanResult s).2 = if accepted 18 s.rxbuf
    then .indices (modmap s.cfg.bank (leValue ((s.rxbuf.take 14).drop 6))) else .none := by
  unfold moduleScanResult modscanResp
  by_cases hshort : s.rxbuf.length < 18
  · simp [accepted, hshort]
  · have hn : 18 ≤ s.rxbuf.length := by omega
    cases hcrc : crcOk s.rxbuf <;> simp [accepted, hshort, hn, hcrc, moduleMask]

/-- Taking the result of `scan_modules` writes the CRC engine's register alone (log 8). -/
theorem moduleScanResult_state (s : State) : ∃ r, (moduleScanResult s).1 = { s with crcReg := r } := by
  unfold moduleScanResult
  split
  · exact ⟨s.crcReg, rfl⟩
  · split <;> exact ⟨_, rfl⟩

/-- Settles O40: the body is the two issuances and the read (`moduleScanReply_effect`), and taking the result writes the CRC
engine's register alone (`moduleScanResult_state`). -/
theorem scanModulesReadsTheMask : Obligations.ScanModulesReadsTheMask := by
  intro s id
  refine ⟨unicastChecks_of_hostCheck rfl rfl, fun hready => ?_⟩
  have hid := hready.toNat_lt
  have hreq : hostRequest (.scanModules id) = some ⟨0x0E#8, [.int id]⟩ := rfl
  have hnone : hostCheck (.scanModules id) s = none := hready.checkUnicast
  have hreply := moduleScanReply_effect (s.accept (some ⟨0x0E#8, [.int id]⟩)) (id := id.toNat)
    (by unfold bcast at hid; omega)
  have hkept := bodyKept_moduleScanReply id.toNat (s.accept (some ⟨0x0E#8, [.int id]⟩))
  have hack := moduleScanReply_ackSize id.toNat (s.accept (some ⟨0x0E#8, [.int id]⟩))
  have hdt := moduleScanReply_dt id.toNat (s.accept (some ⟨0x0E#8, [.int id]⟩))
  rw [exec_of_hostCheck_none hreq hnone]
  simp only [hostBody, moduleScanResult_result]
  generalize moduleScanReply id.toNat (s.accept (some ⟨0x0E#8, [.int id]⟩)) = u at *
  rw [hdrFrame_accept] at hreply
  obtain ⟨htx, hrx, htrace, hreplies, hreads⟩ := hreply
  have hcfg : u.cfg = s.cfg := hkept.cfg
  rw [hrx, hcfg]
  obtain ⟨r, e⟩ := moduleScanResult_state u
  have hkept' := hkept.trans (bodyKept_crcReg u r)
  rw [e]
  exact ⟨_, rfl, hkept'.toContinues.ended _, hdt, htx, hrx, hack, htrace, hreplies, hreads, hkept'.registersKept _⟩

end Sys2Proof.Machine
end

-- ==== Writes and reads (42_bus_master.md) ====
section
/-! PROOFS. A write's request is built over the pre-written mirrors, and a reply that is decoded gives the values of the slot; from
these the writes and reads (O30 to O33) and the driver's baud rate (O44). -/

namespace Sys2Proof.Machine

/-! ## The request of a write -/

theorem checkPair_of_writable {p : Params} {i : Int} {v : Value} (h : writable p i v) : checkPair p i v = none :=
  (checkPair_eq_none_iff p i v).mpr h

/-- A write request is one frame, whose length is the reply's where one is expected (41_codec.md R207, R208). -/
theorem sentOne_requestWrite (s : State) {id : Nat} (hid : id < 256) {pairs : List (Int × Value)}
    (hpairs : ∀ q ∈ pairs, writable s.cfg q.1 q.2) (ack : Bool) :
    sentOne s (s.requestWrite id pairs ack)
      (requestFrame s id (if ack then .writeAck else .write) (writePayload s.cfg.regmap pairs))
      (if ack then writeLen s.cfg.regmap pairs else 0) := by
  have hlen := writeLen_eq fun q hq => encodable_of_checkPair (checkPair_of_writable (hpairs q hq))
  rw [← hlen, State.requestWrite_eq]
  exact sentOne_request s hid ..

theorem bodyKept_requestWrite (s : State) (t : Nat) (pairs : List (Int × Value)) (ack : Bool) :
    BodyKept s (s.requestWrite t pairs ack) := bodyKept_request ..

@[simp] theorem State.requestWrite_dt (s : State) (t : Nat) (pairs : List (Int × Value)) (ack : Bool) :
    (s.requestWrite t pairs ack).dt = s.dt := by simp [State.requestWrite_eq]

/-- What is sent over other mirrors is sent: the trace and the bus do not depend on them. -/
theorem sentOne.of_writeMirror {s t : State} {slot : Nat} {ws : List (Nat × Value)} {F : List Byte} {ack : Nat}
    (h : sentOne (s.writeMirror slot ws) t F ack) : sentOne s t F ack := h

@[simp] theorem State.preWrite_cfg (s : State) (id : Nat) (pairs : List (Int × Value)) :
    (s.preWrite id pairs).cfg = s.cfg := (engineKept_preWrite s id pairs).cfg

/-- The pre-write writes the pairs into the slot's mirror, but not for the broadcast id (42_bus_master.md R262). -/
@[simp] theorem State.preWrite_dt (s : State) (id : Nat) (pairs : List (Int × Value)) :
    (s.preWrite id pairs).dt = if id = bcast then s.dt else writeAll s.cfg s.dt id (mirrorWrites pairs) := by
  unfold State.preWrite
  split <;> rfl

theorem bodyKept_preWrite (s : State) (id : Nat) (pairs : List (Int × Value)) : BodyKept s (s.preWrite id pairs) := by
  unfold State.preWrite
  split
  · exact .refl s
  · exact bodyKept_writeMirror ..

/-- The frame of a write is built over the pre-written mirrors (42_bus_master.md R260, R263). -/
theorem sentOne_preWrite_requestWrite (s : State) {id : Nat} (hid : id < 256) {pairs : List (Int × Value)}
    (hpairs : ∀ q ∈ pairs, writable s.cfg q.1 q.2) (ack : Bool) :
    sentOne s ((s.preWrite id pairs).requestWrite id pairs ack)
      (requestFrame (s.preWrite id pairs) id (if ack then .writeAck else .write) (writePayload s.cfg.regmap pairs))
      (if ack then writeLen s.cfg.regmap pairs else 0) := by
  unfold State.preWrite
  split
  · exact sentOne_requestWrite s hid hpairs ack
  · exact (sentOne_requestWrite (s.writeMirror id (mirrorWrites pairs)) hid hpairs ack).of_writeMirror

/-- Writable pairs of an attached id whose frame fits pass the checks of `set_variables` (42_bus_master.md R260). -/
theorem checkSetVariables_of_writable {s : State} {id : Int} {pairs : List (Int × Value)} (h0 : 0 ≤ id) (h255 : id ≤ 255)
    (ha : s.attached id.toNat = true) (hopen : s.portOpen = true) (hne : pairs ≠ [])
    (hpairs : ∀ q ∈ pairs, writable s.cfg q.1 q.2) (hlen : writeLen s.cfg.regmap pairs ≤ 255) :
    checkSetVariables s id pairs = none :=
  (checkSetVariables_eq_none_iff s id pairs).mpr
    ⟨h0, h255, ha, hne, fun q hq => checkPair_of_writable (hpairs q hq), hlen, hopen⟩

/-- Settles O30: one request over the mirrors the pre-write has left, which are the final ones. -/
theorem unacknowledgedWriteSendsOneFrame : Obligations.UnacknowledgedWriteSendsOneFrame := by
  intro s id pairs ack h0 h255 ha hopen hne hpairs hlen hnoack
  have hreq : hostRequest (.setVariables id pairs ack) = some ⟨0x03#8, [.int id, .pairs pairs, .bool ack]⟩ := rfl
  have hnone : hostCheck (.setVariables id pairs ack) s = none :=
    checkSetVariables_of_writable h0 h255 ha hopen hne hpairs hlen
  have hif : (ack && id.toNat != bcast) = false := by
    obtain rfl | rfl := hnoack
    · rfl
    · cases ack <;> rfl
  rw [exec_of_hostCheck_none hreq hnone]
  simp only [hostBody, bodySetVariables, hif, Bool.false_eq_true, if_false]
  generalize (⟨0x03#8, [.int id, .pairs pairs, .bool ack]⟩ : HostReq) = req
  have hsent := sentOne_preWrite_requestWrite (s.accept (some req)) (id := id.toNat) (by omega) hpairs ack
  have hkept := (bodyKept_preWrite (s.accept (some req)) id.toNat pairs).trans
    (bodyKept_requestWrite _ id.toNat pairs ack)
  have hdt := State.requestWrite_dt ((s.accept (some req)).preWrite id.toNat pairs) id.toNat pairs ack
  have hcfg := (bodyKept_requestWrite ((s.accept (some req)).preWrite id.toNat pairs) id.toNat pairs ack).cfg
  rw [← requestFrame_congr hcfg hdt, ← requestFrame_finish _ .none, State.accept_cfg] at hsent
  have hbcast : id.toNat = bcast ↔ id = 255 := by unfold bcast; omega
  simp only [State.preWrite_dt, hbcast] at hdt
  exact ⟨_, rfl, hkept.toContinues.ended _, hdt, hsent.ofBody _, hkept.registersKept _⟩

/-! ## Reply values -/

/-- A known index of one of the 256 slots reads a value (10_state.md R42). -/
theorem isSome_readCells {p : Params} (hw : p.wf = true) (m : Cells) {slot : Nat} (hs : slot < 256) {i : Int}
    (hi : (p.regmap.findInt i).isSome = true) : (readCells p m slot i.toNat).isSome = true := by
  obtain ⟨d, hd⟩ := Option.isSome_iff_exists.mp hi
  obtain ⟨-, hfind⟩ := RegMap.findInt_eq_some_iff.mp hd
  rw [readCells_eq p m hs (Params.find_lt hw hfind), hfind]
  rfl

/-- The values of known indices, one for each, in order (42_bus_master.md R260, R266). -/
theorem State.valuesAre_readBack {s : State} (hw : s.cfg.wf = true) {id : Nat} (hid : id < 256) {indices : List Int}
    (hknown : ∀ i ∈ indices, (s.cfg.regmap.findInt i).isSome = true) :
    valuesAre s.cfg s.dt id indices (s.readBack id indices) := by
  unfold valuesAre State.readBack
  induction indices with
  | nil => rfl
  | cons i indices ih =>
    obtain ⟨hi, hrest⟩ := List.forall_mem_cons.mp hknown
    obtain ⟨v, hv⟩ := Option.isSome_iff_exists.mp (isSome_readCells hw s.dt hid hi)
    have hread : s.read id i.toNat = some v := hv
    simp only [List.filterMap_cons, hread, List.map_cons, ih hrest, hv]

/-- The outcome of the protocol's answer, whatever the answer (42_bus_master.md R260, R266, R280). -/
theorem replyOutcome_ackProtocol {u : State} (hw : u.cfg.wf = true) {id : Nat} (hid : id < 256) {indices : List Int}
    (hknown : ∀ i ∈ indices, (u.cfg.regmap.findInt i).isSome = true) :
    replyOutcome ((valuesResult u.ackProtocol id indices).1.finish (valuesResult u.ackProtocol id indices).2) u.cfg u.dt
      id indices u.ackSize (u.answer u.ackSize) := by
  refine ⟨fun h => ?_, fun h hm => ?_, fun m' h hm => ?_⟩
  · obtain ⟨hack, hdt⟩ := State.ackProtocol_of_not_accepted h
    simp [valuesResult, hack, hdt]
  · obtain ⟨hack, hdt⟩ := State.ackProtocol_of_decodedTable_none h hm
    simp [valuesResult, hack, hdt]
  · obtain ⟨hack, hdt⟩ := State.ackProtocol_of_decodedTable_some h hm
    have hvalues := State.valuesAre_readBack (s := u.ackProtocol.1) (id := id) (indices := indices) (by simpa using hw)
      hid (by simpa using hknown)
    rw [State.ackProtocol_cfg, hdt] at hvalues
    simp [valuesResult, hack, hdt, hvalues]

/-- What an operation does that sends one frame and answers with the values of the reply (42_bus_master.md R260, R266). -/
theorem answered_of_sentOne {s u : State} {req : HostReq} {F : List Byte} {n id : Nat} {indices : List Int}
    (hsent : sentOne (s.accept (some req)) u F n) (hkept : BodyKept (s.accept (some req)) u) (hw : s.cfg.wf = true)
    (hid : id < 256) (hknown : ∀ i ∈ indices, (s.cfg.regmap.findInt i).isSome = true) {t : State}
    (ht : t = (valuesResult u.ackProtocol id indices).1.finish (valuesResult u.ackProtocol id indices).2) :
    t.op = some req ∧ exchanged s t F n (s.answer n) ∧ replyOutcome t s.cfg u.dt id indices n (s.answer n)
      ∧ registersKept s t := by
  have hkept' := hkept.trans (bodyKept_ackProtocol u)
  have hcfg : u.cfg = s.cfg := hkept.cfg
  have houtcome := replyOutcome_ackProtocol (u := u) (by rw [hcfg]; exact hw) hid (indices := indices)
    (by rw [hcfg]; exact hknown)
  have hack : u.ackSize = n := hsent.2.1
  rw [hack, hsent.answer, State.accept_answer, hcfg, ← ht] at houtcome
  subst ht
  rw [valuesResult_state] at houtcome ⊢
  exact ⟨hkept'.op, hsent.ackProtocol.ofBody _, houtcome, hkept'.registersKept _⟩

/-- Settles O31: one request over the pre-written mirrors, and the reply's outcome over them (`answered_of_sentOne`). -/
theorem acknowledgedWriteReadsTheEcho : Obligations.AcknowledgedWriteReadsTheEcho := by
  intro s id pairs hw hready hne hpairs hlen
  have hid := hready.toNat_lt
  obtain ⟨h0, h255, ha, hopen⟩ := hready
  have hreq : hostRequest (.setVariables id pairs true) = some ⟨0x03#8, [.int id, .pairs pairs, .bool true]⟩ := rfl
  have hnone : hostCheck (.setVariables id pairs true) s = none :=
    checkSetVariables_of_writable h0 h255.le ha hopen hne hpairs hlen
  have hbcast : id.toNat ≠ bcast := Nat.ne_of_lt hid
  have hif : (true && id.toNat != bcast) = true := by simpa using hbcast
  rw [exec_of_hostCheck_none hreq hnone]
  simp only [hostBody, bodySetVariables, hif, if_true]
  generalize (⟨0x03#8, [.int id, .pairs pairs, .bool true]⟩ : HostReq) = req
  have hid256 : id.toNat < 256 := by unfold bcast at hid; omega
  have hsent := sentOne_preWrite_requestWrite (s.accept (some req)) hid256 hpairs true
  have hkept := (bodyKept_preWrite (s.accept (some req)) id.toNat pairs).trans
    (bodyKept_requestWrite _ id.toNat pairs true)
  have hdt := State.requestWrite_dt ((s.accept (some req)).preWrite id.toNat pairs) id.toNat pairs true
  rw [State.preWrite_dt, if_neg hbcast] at hdt
  have hknown : ∀ i ∈ pairs.map (·.1), (s.cfg.regmap.findInt i).isSome = true := by
    intro i hi
    obtain ⟨q, hq, rfl⟩ := List.mem_map.mp hi
    obtain ⟨d, hd, -⟩ := hpairs q hq
    rw [hd]
    rfl
  have hframe := requestFrame_congr (s := { s with dt := writeAll s.cfg s.dt id.toNat (mirrorWrites pairs) })
    (t := (s.accept (some req)).preWrite id.toNat pairs) (by simp) (by simp [hbcast])
  rw [hframe] at hsent
  obtain ⟨hop, hex, houtcome, hregs⟩ := answered_of_sentOne hsent hkept hw hid256 hknown rfl
  rw [hdt] at houtcome
  exact ⟨_, rfl, hop, hex, houtcome, hregs⟩

/-- Settles O32: one request, and the reply's outcome over the mirrors as they are (`answered_of_sentOne`). -/
theorem readDecodesTheReply : Obligations.ReadDecodesTheReply := by
  intro s id indices hw hready hne hknown hlen hack
  have hid := hready.toNat_lt
  obtain ⟨h0, h255, ha, hopen⟩ := hready
  have hreq : hostRequest (.getVariables id indices) = some ⟨0x04#8, [.int id, .ints indices]⟩ := rfl
  have hnone : hostCheck (.getVariables id indices) s = none :=
    (checkGetVariables_eq_none_iff s id indices).mpr ⟨h0, by omega, ha, hne, hknown, hlen, hack, hopen⟩
  rw [exec_of_hostCheck_none hreq hnone]
  simp only [hostBody, bodyGetVariables, State.requestRead_eq, State.accept_cfg]
  generalize (⟨0x04#8, [.int id, .ints indices]⟩ : HostReq) = req
  have hid256 : id.toNat < 256 := by unfold bcast at hid; omega
  have hsent := sentOne_request (s.accept (some req)) hid256 .read (readPayload indices)
    (readAckLen s.cfg.regmap indices)
  rw [requestFrame_accept] at hsent
  have hkept := bodyKept_request (s.accept (some req)) (BitVec.ofNat 8 id.toNat) .read (readPayload indices)
    (readAckLen s.cfg.regmap indices)
  obtain ⟨hop, hex, houtcome, hregs⟩ := answered_of_sentOne hsent hkept hw hid256 hknown rfl
  rw [State.send_dt, State.encode_dt, State.setPhase_dt, State.accept_dt] at houtcome
  exact ⟨_, rfl, hop, hex, houtcome, hregs⟩

/-- Settles O33: the checks look at no mirror, and the body is one request to 255. -/
theorem syncWriteSendsOneBroadcast : Obligations.SyncWriteSendsOneBroadcast := by
  intro s index groups hopen hne hgroups hlen
  have hreq : hostRequest (.setVariablesSync index groups) = some ⟨0x05#8, [.int index, .pairs groups]⟩ := rfl
  have hnone : hostCheck (.setVariablesSync index groups) s = none := by
    refine (checkSetVariablesSync_eq_none_iff s index groups).mpr ⟨hne, fun q hq => ?_, hlen, hopen⟩
    obtain ⟨h0, h254, hw⟩ := hgroups q hq
    exact ⟨h0, h254, checkPair_of_writable hw⟩
  rw [exec_of_hostCheck_none hreq hnone]
  simp only [hostBody, State.requestSync_eq, State.accept_cfg]
  generalize (⟨0x05#8, [.int index, .pairs groups]⟩ : HostReq) = req
  have hsent := sentOne_request (s.accept (some req)) (id := bcast) (by decide) .syncWrite
    (syncPayload s.cfg.regmap index groups) 0
  rw [requestFrame_accept] at hsent
  have hkept := bodyKept_request (s.accept (some req)) (BitVec.ofNat 8 bcast) .syncWrite
    (syncPayload s.cfg.regmap index groups) 0
  exact ⟨_, rfl, hkept.toContinues.ended _, by simp, hsent.ofBody _, hkept.registersKept _⟩

end Sys2Proof.Machine
end

-- ==== The driver's baud rate (42_bus_master.md) ====
section
/-! PROOFS. The checks of `update_driver_baudrate`, those of the BaudRate descriptor among them, and its three requests; from these
O44. -/

namespace Sys2Proof.Machine

/-! ## The checks -/

theorem checkBaud_of_legal {baud : Int} (hmin : 3053 ≤ baud) (hmax : baud ≤ 12500000) : checkBaud baud = none :=
  (checkBaud_eq_none_iff baud).mpr ⟨hmin, hmax⟩

theorem checkPair_of_find {p : Params} {idx : Nat} {d : Descriptor} (hd : p.regmap.find idx = some d) (v : Value) :
    checkPair p idx v = checkValue p d v := by
  rw [checkPair, RegMap.findInt_natCast, hd]

/-- A value of the right shape outside the domains of its fields (42_bus_master.md R255). -/
theorem checkValue_of_out_of_domain {p : Params} {d : Descriptor} {v : Value} (hs : shapeOk d.fmt v = true)
    (hf : fieldsInDomain d.fmt v.fields = false) : checkValue p d v = some .valueRange := by
  simp [checkValue, hs, hf]

/-- A value of the format of a descriptor that the host may not write (42_bus_master.md R255). -/
theorem checkValue_of_read_only {p : Params} {d : Descriptor} {v : Value} (hs : shapeOk d.fmt v = true)
    (hf : fieldsInDomain d.fmt v.fields = true) (he : p.enforceMutable = true) (hm : d.isMutable = false) :
    checkValue p d v = some .readOnly := by
  simp [checkValue, hs, hf, he, hm]

/-- What the checks of `update_driver_baudrate` say of an attached id and a legal rate (42_bus_master.md R321). -/
theorem checkDriverBaud_of_legal {s : State} {id baud : Int} (h0 : 0 ≤ id) (h254 : id ≤ 254)
    (ha : s.attached id.toNat = true) (hmin : 3053 ≤ baud) (hmax : baud ≤ 12500000) :
    checkDriverBaud s id baud
      = firstError [checkPair s.cfg s.cfg.regmap.baudRate (.scalar baud), checkPort s] := by
  rw [checkDriverBaud, checkId_of_unicast h0 h254, checkAttached_of_attached ha, checkBaud_of_legal hmin hmax]
  rfl

/-! ## The three requests -/

theorem bodyKept_bodyDriverBaud (id : Nat) (baud : Int) (s : State) : BodyKept s (bodyDriverBaud id baud s).1 :=
  (bodyKept_writeMirror ..).trans <| (bodyKept_requestWrite ..).trans <|
    (bodyKept_requestHdr ..).trans (bodyKept_requestHdr ..)

@[simp] theorem bodyDriverBaud_dt (id : Nat) (baud : Int) (s : State) :
    (bodyDriverBaud id baud s).1.dt = writeAll s.cfg s.dt id [(s.cfg.regmap.baudRate, .scalar baud)] := by
  simp [bodyDriverBaud]

/-- The three requests, all built over the mirrors with the new rate, which the body leaves (42_bus_master.md R321). -/
theorem bodyDriverBaud_effect (s : State) {id : Nat} (hid : id < 256) (baud : Int) {u : State}
    (hu : u = (bodyDriverBaud id baud s).1) :
    u.trace = s.trace
        ++ [.tx (requestFrame u id .write (writePayload s.cfg.regmap [((s.cfg.regmap.baudRate : Int), .scalar baud)])),
          .settle s.baudRate, .tx (hdrFrame u id .eepromWrite), .settle s.baudRate,
          .tx (hdrFrame u id .reboot), .settle s.baudRate]
      ∧ u.txbuf = hdrFrame u id .reboot ∧ u.ackSize = 0 ∧ busKept s u := by
  have hhdr : ∀ c, hdrFrame u id c = sealFrame (u.frameBody (BitVec.ofNat 8 id) c []) :=
    fun c => (sealFrame_frameBody u hid c []).symm
  rw [hhdr, hhdr, ← sealFrame_frameBody u hid, hu]
  simp [bodyDriverBaud, State.requestWrite_eq, State.requestHdr_eq, hdrAck, busKept]

/-- Settles O44: the checks by their first error, and the three requests by `bodyDriverBaud_effect`, whose mirrors are the final
ones. -/
theorem driverBaudSendsThreeFrames : Obligations.DriverBaudSendsThreeFrames := by
  intro s id baud fails
  have hreq : hostRequest (.updateDriverBaudrate id baud) = some ⟨0x11#8, [.int id, .int baud]⟩ := rfl
  have hfails : ∀ {e}, checkDriverBaud s id baud = some e → fails e := fun hc => failsWith_of_hostCheck hreq hc
  refine ⟨fun hr => hfails ?_, fun hb => hfails ?_, fun h0 h254 => ⟨fun ha => hfails ?_, fun ha => ⟨fun hbaud => hfails ?_,
    fun hmin hmax => ?_⟩⟩, fun hready hmin hmax hw => ?_⟩
  · rw [checkDriverBaud, checkId_of_out_of_range hr, firstError_cons_some]
  · rw [checkDriverBaud, hb, checkId_broadcast, firstError_cons_some]
  · rw [checkDriverBaud, checkId_of_unicast h0 h254, checkAttached_of_not ha, firstError_cons_none, firstError_cons_some]
  · rw [checkDriverBaud, checkId_of_unicast h0 h254, checkAttached_of_attached ha, checkBaud_of_out_of_range hbaud,
      firstError_cons_none, firstError_cons_none, firstError_cons_some]
  · have hlegal := checkDriverBaud_of_legal h0 h254 ha hmin hmax
    refine ⟨fun d hd hs => ⟨fun hf => hfails ?_, fun hf he hm => hfails ?_⟩, fun hw hclosed => hfails ?_⟩
    · rw [hlegal, checkPair_of_find hd, checkValue_of_out_of_domain hs hf, firstError_cons_some]
    · rw [hlegal, checkPair_of_find hd, checkValue_of_read_only hs hf he hm, firstError_cons_some]
    · rw [hlegal, checkPair_of_writable hw, checkPort_of_closed hclosed, firstError_cons_none, firstError_cons_some]
  · have hid := hready.toNat_lt
    obtain ⟨h0, h255, ha, hopen⟩ := hready
    have hnone : hostCheck (.updateDriverBaudrate id baud) s = none :=
      (checkDriverBaud_eq_none_iff s id baud).mpr
        ⟨h0, by omega, ha, checkBaud_of_legal hmin hmax, checkPair_of_writable hw, hopen⟩
    rw [exec_of_hostCheck_none hreq hnone]
    simp only [hostBody]
    generalize (⟨0x11#8, [.int id, .int baud]⟩ : HostReq) = req
    have hkept := bodyKept_bodyDriverBaud id.toNat baud (s.accept (some req))
    have hdt := bodyDriverBaud_dt id.toNat baud (s.accept (some req))
    obtain ⟨htrace, htx, hack, hbus⟩ := bodyDriverBaud_effect (s.accept (some req)) (id := id.toNat)
      (by unfold bcast at hid; omega) baud rfl
    refine ⟨_, rfl, hkept.toContinues.ended _, ?_, ?_, ?_, ?_, hbus.ofBody _, hkept.registersKept _⟩
    · rw [State.finish_dt, hdt, State.accept_cfg, State.accept_dt]
    · rw [State.finish_trace, htrace, requestFrame_finish, hdrFrame_finish, hdrFrame_finish]
      rfl
    · rw [State.finish_txbuf, htx, hdrFrame_finish]
    · rw [State.finish_ackSize, hack]

end Sys2Proof.Machine
end

-- ==== The phases of a host operation (42_bus_master.md) ====
section
/-! PROOFS. The phases an operation has passed stay a legal sequence along its body: between its requests it is in VALIDATE,
SETTLE, CHECK or DECODE, from each of which it may encode or end; and from these O50. -/

namespace Sys2Proof.Machine

/-! ## A legal sequence -/

theorem phasesOk_iff_isChain (l : List Phase) : phasesOk l = true ↔ l.IsChain (fun a b => phaseNext a b = true) := by
  induction l with
  | nil => simp [phasesOk]
  | cons a l ih =>
    cases l with
    | nil => simp [phasesOk]
    | cons b l => rw [phasesOk, Bool.and_eq_true, ih, List.isChain_cons_cons]

/-- The operation has passed legal phases from IDLE, and is in phase `ph` (42_bus_master.md R258, log 7). -/
def PathAt (ph : Phase) (s : State) : Prop := phasesOk (.idle :: s.phasePath) = true ∧ s.phasePath.getLast? = some ph

theorem PathAt.congr {ph : Phase} {s t : State} (h : PathAt ph s) (hp : t.phasePath = s.phasePath) : PathAt ph t := by
  unfold PathAt
  rw [hp]
  exact h

/-- A transition of the rule goes on legally (42_bus_master.md R258). -/
theorem PathAt.append {a b : Phase} {s t : State} (h : PathAt a s) (hnext : phaseNext a b = true)
    (hp : t.phasePath = s.phasePath ++ [b]) : PathAt b t := by
  obtain ⟨hok, hlast⟩ := h
  unfold PathAt
  rw [hp]
  refine ⟨?_, List.getLast?_concat⟩
  rw [phasesOk_iff_isChain] at hok ⊢
  refine List.isChain_append (l₁ := .idle :: s.phasePath).mpr ⟨hok, .singleton b, ?_⟩
  have hat : (Phase.idle :: s.phasePath).getLast? = some a := by rw [List.getLast?_cons, hlast]; rfl
  simpa [hat] using hnext

theorem pathAt_accept (s : State) (req : Option HostReq) : PathAt .validate (s.accept req) := ⟨rfl, rfl⟩

/-! ## Between the requests of a body -/

/-- The operation may encode a request or end: it has sent none yet, or the last one is settled or its reply checked
(42_bus_master.md R258). -/
def BetweenRequests (s : State) : Prop := ∃ ph ∈ [Phase.validate, .settle, .check, .decode], PathAt ph s

theorem PathAt.betweenRequests {ph : Phase} {s : State} (h : PathAt ph s)
    (hph : ph ∈ [Phase.validate, .settle, .check, .decode] := by decide) : BetweenRequests s := ⟨ph, hph, h⟩

theorem BetweenRequests.congr {s t : State} (h : BetweenRequests s) (hp : t.phasePath = s.phasePath) :
    BetweenRequests t := by
  obtain ⟨ph, hph, hpath⟩ := h
  exact ⟨ph, hph, hpath.congr hp⟩

theorem phaseNext_of_between {a b : Phase} (ha : a ∈ [Phase.validate, .settle, .check, .decode])
    (hb : b ∈ [Phase.encode, .done]) : phaseNext a b = true := by
  have hall : ∀ a ∈ [Phase.validate, .settle, .check, .decode], ∀ b ∈ [Phase.encode, .done], phaseNext a b = true := by
    decide
  exact hall a ha b hb

/-- A request passes ENCODE, TX and SETTLE (42_bus_master.md R257, R258). -/
theorem BetweenRequests.request {s : State} (h : BetweenRequests s) (t : Byte) (c : Command) (P : List Byte) (ack : Nat) :
    PathAt .settle ((s.setPhase .encode).encode t c P ack).send := by
  obtain ⟨ph, hph, hpath⟩ := h
  have hencode : PathAt .encode ((s.setPhase .encode).encode t c P ack) :=
    hpath.append (phaseNext_of_between hph (by decide)) rfl
  have htx : PathAt .tx (((s.setPhase .encode).encode t c P ack).setPhase .tx) := hencode.append rfl rfl
  exact htx.append rfl (by simp)

/-- The read of a reply passes RX and CHECK (42_bus_master.md R258, R280). -/
theorem PathAt.readReply {s : State} (h : PathAt .settle s) (n : Nat) : PathAt .check (s.readReply n) := by
  have hrx : PathAt .rx (s.setPhase .rx) := h.append rfl rfl
  exact hrx.append rfl (by simp)

/-- The protocol ends in CHECK or, where the reply is decoded, in DECODE (42_bus_master.md R258, R280). -/
theorem PathAt.ackProtocol {s : State} (h : PathAt .settle s) : BetweenRequests s.ackProtocol.1 := by
  have hcheck := h.readReply s.ackSize
  rw [State.ackProtocol_eq]
  cases classifyReply s.cfg.regmap s.ackSize (s.answer s.ackSize) with
  | short | badCrc | plain => exact (hcheck.congr (by simp)).betweenRequests
  | framing | decoded => exact (hcheck.append (b := .decode) rfl (by simp)).betweenRequests

/-- An operation ends through DONE in IDLE (42_bus_master.md R258). -/
theorem BetweenRequests.finish {s : State} (h : BetweenRequests s) (r : Result) : PathAt .idle (s.finish r) := by
  obtain ⟨ph, hph, hpath⟩ := h
  have hdone : PathAt .done ({ s with result := some r }.setPhase .done) :=
    hpath.append (phaseNext_of_between hph (by decide)) rfl
  exact hdone.append rfl rfl

/-! ## The phases of each body -/

theorem BetweenRequests.bodySetVariables {s : State} (h : BetweenRequests s) (id : Nat) (pairs : List (Int × Value))
    (ack : Bool) : BetweenRequests (bodySetVariables id pairs ack s).1 := by
  have hwritten : BetweenRequests (s.preWrite id pairs) := h.congr (by unfold State.preWrite; split <;> rfl)
  have hsent : PathAt .settle ((s.preWrite id pairs).requestWrite id pairs ack) := hwritten.request ..
  unfold Machine.bodySetVariables
  split
  · rw [valuesResult_state]
    exact hsent.ackProtocol
  · exact hsent.betweenRequests

theorem BetweenRequests.bodyGetVariables {s : State} (h : BetweenRequests s) (id : Nat) (indices : List Int) :
    BetweenRequests (bodyGetVariables id indices s).1 := by
  have hsent : PathAt .settle (s.requestRead id indices) := h.request ..
  rw [Machine.bodyGetVariables, valuesResult_state]
  exact hsent.ackProtocol

theorem BetweenRequests.requestHdr {s : State} (h : BetweenRequests s) (t : Nat) (c : Command) (second : Bool) :
    PathAt .settle (s.requestHdr t c second) := h.request ..

theorem BetweenRequests.bodyAcked {s : State} (h : BetweenRequests s) (id : Nat) (c : Command) :
    BetweenRequests (bodyAcked id c s).1 := (h.requestHdr id c false).ackProtocol

theorem BetweenRequests.bodyDriverBaud {s : State} (h : BetweenRequests s) (id : Nat) (baud : Int) :
    BetweenRequests (bodyDriverBaud id baud s).1 := by
  have hwritten : BetweenRequests (s.writeMirror id [(s.cfg.regmap.baudRate, .scalar baud)]) := h.congr rfl
  have hsent := (hwritten.request (BitVec.ofNat 8 id) .write
    (writePayload s.cfg.regmap [((s.cfg.regmap.baudRate : Int), .scalar baud)]) 0).betweenRequests
  exact ((hsent.requestHdr id .eepromWrite false).betweenRequests.requestHdr id .reboot false).betweenRequests

theorem BetweenRequests.scanProbe {s : State} (h : BetweenRequests s) (id : Nat) : BetweenRequests (scanProbe id s).1 := by
  have hfresh : BetweenRequests (s.install id id s.cfg.scanFamily) := h.congr rfl
  have hread := (hfresh.requestHdr id .ping false).ackProtocol
  unfold Machine.scanProbe
  split
  · exact hread
  · exact hread.congr rfl

theorem BetweenRequests.scanLoop {s : State} (h : BetweenRequests s) (ids : List Nat) :
    BetweenRequests (scanLoop ids s).1 := by
  induction ids generalizing s with
  | nil => exact h
  | cons id ids ih => exact ih (h.scanProbe id)

theorem BetweenRequests.moduleScan {s : State} (h : BetweenRequests s) (id : Nat) :
    BetweenRequests (moduleScanResult (moduleScanReply id s)).1 := by
  have hwarm := ((h.requestHdr id .moduleScan false).betweenRequests).congr
    (State.emit_phasePath (s.requestHdr id .moduleScan false) (.delay .warmup))
  have hread : BetweenRequests (moduleScanReply id s) :=
    ((hwarm.requestHdr id .moduleScan true).readReply modscanResp).betweenRequests
  obtain ⟨r, e⟩ := moduleScanResult_state (moduleScanReply id s)
  rw [e]
  exact hread.congr rfl

/-- Every body leaves the operation where it may end: a body is requests and replies, and the table operations pass no phase
(42_bus_master.md R258). -/
theorem BetweenRequests.hostBody {s : State} (h : BetweenRequests s) (p : Params) (i : Instr) :
    BetweenRequests (hostBody p i s).1 := by
  cases i
  case setVariables | setBuzzer | setServo | setRgb => exact h.bodySetVariables ..
  case getVariables | getDriverInfo | getButton | getLight | getJoystick | getDistance | getQtr | getPotentiometer
      | getImu => exact h.bodyGetVariables ..
  case setVariablesSync => exact (h.request ..).betweenRequests
  case ping => exact h.bodyAcked ..
  case reboot | hardReset | tune | resetEncoder => exact (h.requestHdr ..).betweenRequests
  case eepromWrite id ack =>
    cases ack
    · exact (h.requestHdr ..).betweenRequests
    · exact h.bodyAcked ..
  case enterBootloader id =>
    rw [hostBody_enterBootloader]
    exact (h.requestHdr ..).betweenRequests.congr (State.closePort_phasePath _)
  case scan =>
    have hloop := BetweenRequests.scanLoop (s := s.selectTimeout .scan) (h.congr rfl) scanIds
    rw [hostBody_scan]
    exact hloop.congr (by simp)
  case scanModules => exact h.moduleScan ..
  case updateDriverBaudrate => exact h.bodyDriverBaud ..
  all_goals exact h.congr rfl

/-- Settles O50: an error and a body both leave the operation between requests, from where it ends in IDLE. -/
theorem phasesFollowTheSequence : Obligations.PhasesFollowTheSequence := by
  intro s t i req h he
  have haccept : BetweenRequests (s.accept (some req)) := (pathAt_accept s (some req)).betweenRequests
  obtain ⟨e, rfl⟩ | ⟨-, r, rfl⟩ := exec_host_cases h he
  · exact haccept.finish (.error e)
  · exact (haccept.hostBody s.cfg i).finish r

end Sys2Proof.Machine
end

-- ==== The scan (42_bus_master.md) ====
section
/-! PROOFS. What one probe of `scan` leaves, what its loop leaves over ascending ids, by induction on them, and from these O38 and
O39. -/

namespace Sys2Proof.Machine

/-! ## The answers of the coming reads -/

theorem State.answer_eq_answerAt (s : State) (n : Nat) : s.answer n = s.answerAt 0 n := by
  unfold State.answer State.answerAt
  cases s.busReplies <;> rfl

/-- After one read the next answers are the later ones (20_memory.md R96). -/
theorem State.answerAt_of_read {s t : State} (hreplies : t.busReplies = s.busReplies.tail)
    (hreads : t.busReads = s.busReads + 1) (k n : Nat) : t.answerAt k n = s.answerAt (k + 1) n := by
  have hindex : s.busReads + 1 + k = s.busReads + (k + 1) := by omega
  rw [State.answerAt, State.answerAt, hreplies, hreads, hindex, List.getD_eq_getElem?_getD, List.getD_eq_getElem?_getD,
    List.getElem?_tail]

/-! ## One probe -/

/-- A probe's state after its ping and the read: a fresh mirror in the slot (42_bus_master.md R300). -/
def pinged (id : Nat) (s : State) : State := ((s.install id id s.cfg.scanFamily).requestHdr id .ping false).ackProtocol.1

theorem pinged_exchanged (s : State) {id : Nat} (hid : id < 256) :
    exchanged s (pinged id s) (hdrFrame (s.install id id s.cfg.scanFamily) id .ping) 10 (s.answer 10) :=
  (sentOne_requestHdr (s.install id id s.cfg.scanFamily) hid .ping false).ackProtocol

theorem bodyKept_pinged (id : Nat) (s : State) : BodyKept s (pinged id s) :=
  (bodyKept_install ..).trans <| (bodyKept_requestHdr ..).trans (bodyKept_ackProtocol _)

theorem pinged_dt (id : Nat) (s : State) : (pinged id s).dt = (s.install id id s.cfg.scanFamily).dt :=
  (State.ackProtocol_dt_of_ackSize_le (hdrAck_false_le .ping)).trans (State.requestHdr_dt ..)

theorem pinged_read (id : Nat) (s : State) (slot idx : Nat) :
    (pinged id s).read slot idx = (s.install id id s.cfg.scanFamily).read slot idx :=
  State.read_congr (s := s.install id id s.cfg.scanFamily) (bodyKept_pinged id s).cfg (pinged_dt id s) slot idx

/-- A probe keeps the fresh mirror exactly for ten bytes with a matching CRC (42_bus_master.md R300). -/
theorem scanProbe_eq (s : State) {id : Nat} (hid : id < 256) : scanProbe id s =
    if accepted 10 (s.answer 10) = true then (pinged id s, true) else ((pinged id s).installSentinel id, false) := by
  have hsent := sentOne_requestHdr (s.install id id s.cfg.scanFamily) hid .ping false
  have hack : ((s.install id id s.cfg.scanFamily).requestHdr id .ping false).ackSize = 10 := State.requestHdr_ackSize ..
  have hanswer : ((s.install id id s.cfg.scanFamily).requestHdr id .ping false).answer 10 = s.answer 10 := hsent.answer 10
  have hok := State.ackProtocol_ok_iff hack.le
  rw [hack, hanswer] at hok
  simp only [scanProbe, pinged, hok]

theorem scanProbe_found (s : State) {id : Nat} (hid : id < 256) : (scanProbe id s).2 = accepted 10 (s.answer 10) := by
  rw [scanProbe_eq s hid]
  cases accepted 10 (s.answer 10) <;> rfl

/-- A probe leaves what its ping and its read have left, but for the mirror of its slot. -/
theorem scanProbe_state (s : State) {id : Nat} (hid : id < 256) :
    ∃ m, (scanProbe id s).1 = { pinged id s with dt := m } := by
  rw [scanProbe_eq s hid]
  split
  · exact ⟨(pinged id s).dt, rfl⟩
  · exact ⟨_, rfl⟩

theorem bodyKept_scanProbe {id : Nat} (hid : id < 256) (s : State) : BodyKept s (scanProbe id s).1 := by
  have h := bodyKept_pinged id s
  obtain ⟨m, e⟩ := scanProbe_state s hid
  rw [e]
  exact ⟨⟨⟨h.cfg, h.op, h.trace⟩, h.baudRate, h.settleDelay, h.lastScanned, h.portOpen, h.timeoutSel⟩, h.crcOut, h.pending,
    h.internal⟩

/-- A probe's acknowledgment size, events and use of the bus: one ping, settled, and one read (42_bus_master.md R300). -/
theorem scanProbe_effect (s : State) {id : Nat} (hid : id < 256) :
    (scanProbe id s).1.ackSize = 10
      ∧ (scanProbe id s).1.trace = s.trace ++ [.tx (hdrFrame (s.install id id s.cfg.scanFamily) id .ping),
          .settle s.baudRate, .rx 10 (s.answer 10)]
      ∧ (scanProbe id s).1.busReplies = s.busReplies.tail ∧ (scanProbe id s).1.busReads = s.busReads + 1 := by
  obtain ⟨-, hack, -, htrace, hreplies, hreads⟩ := pinged_exchanged s hid
  obtain ⟨m, e⟩ := scanProbe_state s hid
  rw [e]
  exact ⟨hack, htrace, hreplies, hreads⟩

/-- What `scan` leaves at an index of a probed slot: that of `fresh(id, P_SCAN_FAMILY)` for a found id, and the sentinel's for
another (42_bus_master.md R300, R301). -/
def scannedValue (p : Params) (found : Bool) (id idx : Nat) (d : Descriptor) : Value :=
  if idx = 1 then .scalar (if found then (id : Int) else 255)
  else if idx = 2 then .scalar (if found then p.scanFamily.toNat else p.sentinelFamily.toNat : Nat)
  else d.resetValue

theorem scanProbe_read_same (s : State) {id idx : Nat} (hid : id < 256) (hi : idx < 256) :
    (scanProbe id s).1.read id idx
      = (s.cfg.regmap.find idx).map (scannedValue s.cfg (accepted 10 (s.answer 10)) id idx) := by
  rw [scanProbe_eq s hid]
  cases accepted 10 (s.answer 10) with
  | true =>
    refine (pinged_read id s id idx).trans ?_
    exact State.read_install_same s id s.cfg.scanFamily hid hi
  | false =>
    refine (State.read_install_same (pinged id s) bcast (pinged id s).cfg.sentinelFamily hid hi).trans ?_
    rw [(bodyKept_pinged id s).cfg]
    exact Option.map_congr fun d _ => by simp [scannedValue, bcast]

theorem scanProbe_read_ne (s : State) {id slot : Nat} (hid : id < 256) (hne : slot ≠ id) (idx : Nat) :
    (scanProbe id s).1.read slot idx = s.read slot idx := by
  have hfresh : (pinged id s).read slot idx = s.read slot idx :=
    (pinged_read id s slot idx).trans (State.read_install_ne s idx id s.cfg.scanFamily hne)
  rw [scanProbe_eq s hid]
  split
  · exact hfresh
  · exact (State.read_install_ne (pinged id s) idx bcast _ hne).trans hfresh

/-- The frame of a probe's ping: a fresh mirror has P_SCAN_FAMILY, and Status at its reset value (42_bus_master.md R300,
41_codec.md R201). -/
theorem hdrFrame_install (s : State) (hw : s.cfg.wf = true) {st : Byte} {d : Descriptor} (hd : s.cfg.regmap.find 5 = some d)
    (hr : d.resetValue = .scalar st.toNat) {id : Nat} (hid : id < 256) (fam : Byte) (c : Command) :
    hdrFrame (s.install id id fam) id c = buildFrame s.cfg.cmd (BitVec.ofNat 8 id) c fam st [] := by
  obtain ⟨d2, hd2, -⟩ := Params.header_fmt hw (i := 2) (by decide)
  have hfam : (s.install id id fam).mirrorByte id idxDeviceFamily = fam := by
    have hread : (s.install id id fam).read id 2 = some (.scalar fam.toNat) := by
      rw [State.read_install_same s id fam hid (by decide), hd2]
      rfl
    exact BitVec.eq_of_toNat_eq (toNat_mirrorByte_of_read hread (by omega))
  have hstatus : (s.install id id fam).mirrorByte id idxStatus = st := by
    have hread : (s.install id id fam).read id 5 = some (.scalar st.toNat) := by
      rw [State.read_install_same s id fam hid (by decide), hd, ← hr]
      rfl
    exact BitVec.eq_of_toNat_eq (toNat_mirrorByte_of_read hread (by omega))
  rw [hdrFrame, hfam, hstatus]
  rfl

/-! ## The loop over ascending ids -/

theorem scanLoop_cons (id : Nat) (ids : List Nat) (s : State) :
    (scanLoop (id :: ids) s).1 = (scanLoop ids (scanProbe id s).1).1 := rfl

theorem bodyKept_scanLoop {ids : List Nat} (hids : ∀ id ∈ ids, id < 256) (s : State) : BodyKept s (scanLoop ids s).1 := by
  induction ids generalizing s with
  | nil => exact .refl s
  | cons id ids ih =>
    obtain ⟨hid, hids⟩ := List.forall_mem_cons.mp hids
    exact (bodyKept_scanProbe hid s).trans (ih hids _)

/-- The loop makes one read for each id (42_bus_master.md R300). -/
theorem scanLoop_bus {ids : List Nat} (hids : ∀ id ∈ ids, id < 256) (s : State) :
    (scanLoop ids s).1.busReplies = s.busReplies.drop ids.length
      ∧ (scanLoop ids s).1.busReads = s.busReads + ids.length := by
  induction ids generalizing s with
  | nil => exact ⟨rfl, rfl⟩
  | cons id ids ih =>
    obtain ⟨hid, hids⟩ := List.forall_mem_cons.mp hids
    obtain ⟨-, -, hreplies, hreads⟩ := scanProbe_effect s hid
    obtain ⟨hreplies', hreads'⟩ := ih hids (scanProbe id s).1
    rw [scanLoop_cons, hreplies', hreads', hreplies, hreads, List.drop_tail]
    exact ⟨rfl, by rw [List.length_cons]; omega⟩

theorem scanLoop_ackSize {ids : List Nat} (hids : ∀ id ∈ ids, id < 256) {s : State} (h : s.ackSize = 10) :
    (scanLoop ids s).1.ackSize = 10 := by
  induction ids generalizing s with
  | nil => exact h
  | cons id ids ih =>
    obtain ⟨hid, hids⟩ := List.forall_mem_cons.mp hids
    exact ih hids (scanProbe_effect s hid).1

/-- A slot the loop does not probe keeps its mirror (42_bus_master.md R301). -/
theorem scanLoop_read_of_not_mem {ids : List Nat} (hids : ∀ id ∈ ids, id < 256) {slot : Nat} (hslot : slot ∉ ids) (idx : Nat)
    (s : State) : (scanLoop ids s).1.read slot idx = s.read slot idx := by
  induction ids generalizing s with
  | nil => rfl
  | cons id ids ih =>
    obtain ⟨hid, hids⟩ := List.forall_mem_cons.mp hids
    obtain ⟨hne, hslot⟩ : slot ≠ id ∧ slot ∉ ids := by simpa using hslot
    rw [scanLoop_cons, ih hids hslot, scanProbe_read_ne s hid hne]

/-- The answer of a later probe's read is a later answer, once the first probe has been made. -/
theorem answerAt_after_probe (s : State) {a id : Nat} (ha : a < 256) (hid : a + 1 ≤ id) :
    (scanProbe a s).1.answerAt (id - (a + 1)) 10 = s.answerAt (id - a) 10 := by
  obtain ⟨-, -, hreplies, hreads⟩ := scanProbe_effect s ha
  have hindex : id - (a + 1) + 1 = id - a := by omega
  rw [State.answerAt_of_read hreplies hreads, hindex]

theorem forall_lt_of_range' {a n : Nat} (h : a + n ≤ 256) : ∀ id ∈ List.range' a n, id < 256 := fun id hid => by
  have := List.mem_range'_1.mp hid
  omega

/-- The ids found are those whose read is accepted, the k-th id's being the k-th read (42_bus_master.md R300). -/
theorem scanLoop_found {a n : Nat} (h : a + n ≤ 256) (s : State) :
    (scanLoop (List.range' a n) s).2 = (List.range' a n).filter fun id => accepted 10 (s.answerAt (id - a) 10) := by
  induction n generalizing a s with
  | zero => rfl
  | succ n ih =>
    have hfirst : s.answer 10 = s.answerAt (a - a) 10 := by rw [Nat.sub_self, s.answer_eq_answerAt]
    have hlater : ((List.range' (a + 1) n).filter fun id => accepted 10 ((scanProbe a s).1.answerAt (id - (a + 1)) 10))
        = (List.range' (a + 1) n).filter fun id => accepted 10 (s.answerAt (id - a) 10) :=
      List.filter_congr fun id hid => by rw [answerAt_after_probe s (by omega) (List.mem_range'_1.mp hid).1]
    rw [List.range'_succ, scanLoop, List.filter_cons]
    dsimp only
    rw [ih (by omega), hlater, scanProbe_found s (by omega), hfirst]

/-- A probed slot holds what its probe has left (42_bus_master.md R300, R301). -/
theorem scanLoop_read_of_mem {a n : Nat} (h : a + n ≤ 256) {slot idx : Nat} (hslot : slot ∈ List.range' a n)
    (hi : idx < 256) (s : State) : (scanLoop (List.range' a n) s).1.read slot idx
      = (s.cfg.regmap.find idx).map (scannedValue s.cfg (accepted 10 (s.answerAt (slot - a) 10)) slot idx) := by
  induction n generalizing a s with
  | zero => simp at hslot
  | succ n ih =>
    rw [List.range'_succ, scanLoop_cons]
    obtain rfl | hlater : slot = a ∨ slot ∈ List.range' (a + 1) n := by simpa [List.range'_succ] using hslot
    · have hnot : slot ∉ List.range' (slot + 1) n := fun hm => by
        have := List.mem_range'_1.mp hm
        omega
      rw [scanLoop_read_of_not_mem (forall_lt_of_range' (by omega)) hnot, scanProbe_read_same s (by omega) hi,
        Nat.sub_self, s.answer_eq_answerAt]
    · rw [ih (by omega) hlater, (bodyKept_scanProbe (by omega) s).cfg,
        answerAt_after_probe s (by omega) (List.mem_range'_1.mp hlater).1]

/-- The events of the loop: for each id its ping, settled, and its read (42_bus_master.md R300). -/
theorem scanLoop_trace {F : Nat → List Byte} {a n : Nat} (h : a + n ≤ 256) (s : State)
    (hF : ∀ (u : State) id, u.cfg = s.cfg → id < 256 → hdrFrame (u.install id id u.cfg.scanFamily) id .ping = F id) :
    (scanLoop (List.range' a n) s).1.trace = s.trace ++ (List.range' a n).flatMap fun id =>
      [.tx (F id), .settle s.baudRate, .rx 10 (s.answerAt (id - a) 10)] := by
  induction n generalizing a s with
  | zero => simp [scanLoop]
  | succ n ih =>
    obtain ⟨-, htrace, -, -⟩ := scanProbe_effect s (id := a) (by omega)
    have hkept := bodyKept_scanProbe (id := a) (by omega) s
    have hlater : ((List.range' (a + 1) n).flatMap fun id =>
          [Event.tx (F id), .settle s.baudRate, .rx 10 ((scanProbe a s).1.answerAt (id - (a + 1)) 10)])
        = (List.range' (a + 1) n).flatMap fun id =>
          [Event.tx (F id), .settle s.baudRate, .rx 10 (s.answerAt (id - a) 10)] :=
      List.flatMap_congr fun id hid => by rw [answerAt_after_probe s (by omega) (List.mem_range'_1.mp hid).1]
    rw [List.range'_succ, scanLoop_cons, ih (by omega) _ fun u id hu => hF u id (hu.trans hkept.cfg), hkept.baudRate,
      hlater, htrace, hF s a rfl (by omega), List.flatMap_cons, Nat.sub_self, s.answer_eq_answerAt, List.append_assoc]

/-! ## The whole scan -/

theorem scanIds_eq : scanIds = List.range' 0 255 := List.range_eq_range'

/-- All a scan on an open port does: its loop between two timeout selections (42_bus_master.md R300). -/
theorem exec_scan_of_open {s u : State} {found : List Nat} (hopen : s.portOpen = true)
    (hloop : scanLoop (List.range' 0 255) ((s.accept (some ⟨0x0D#8, []⟩)).selectTimeout .scan) = (u, found)) :
    exec .scan s = .next (((u.selectTimeout .normal).recordScanned found).finish (.ids found)) := by
  have hnone : hostCheck .scan s = none := by simp [hostCheck, checkPort, hopen]
  have hreq : hostRequest .scan = some ⟨0x0D#8, []⟩ := rfl
  rw [exec_of_hostCheck_none hreq hnone]
  simp only [hostBody, bodyScan, scanIds_eq, hloop]

/-- The ids found, the registers kept and the mirrors after the loop over the first n ids (42_bus_master.md R300, R301). -/
theorem scanLoop_all {n : Nat} (hn : n ≤ 256) {b u : State} {found : List Nat}
    (h : scanLoop (List.range' 0 n) b = (u, found)) :
    BodyKept b u ∧ found = (List.range n).filter (fun id => accepted 10 (b.answerAt id 10))
      ∧ (∀ id idx, id < n → idx < 256 → u.read id idx
          = (b.cfg.regmap.find idx).map (scannedValue b.cfg (accepted 10 (b.answerAt id 10)) id idx))
      ∧ ∀ id idx, n ≤ id → u.read id idx = b.read id idx := by
  have h256 : 0 + n ≤ 256 := by omega
  have hids := forall_lt_of_range' h256
  obtain ⟨rfl, rfl⟩ := Prod.mk.inj h.symm
  refine ⟨bodyKept_scanLoop hids b, ?_, fun id idx hid hi => ?_, fun id idx hid => ?_⟩
  · rw [scanLoop_found h256, List.range_eq_range']
    rfl
  · exact scanLoop_read_of_mem h256 (List.mem_range'_1.mpr (by omega)) hi b
  · exact scanLoop_read_of_not_mem hids (fun hm => by have := List.mem_range'_1.mp hm; omega) idx b

/-- The acknowledgment size and the use of the bus after the loop over the first n + 1 ids (42_bus_master.md R300). -/
theorem scanLoop_all_bus {n : Nat} (hn : n + 1 ≤ 256) {b u : State} {found : List Nat}
    (h : scanLoop (List.range' 0 (n + 1)) b = (u, found)) :
    u.ackSize = 10 ∧ u.busReplies = b.busReplies.drop (n + 1) ∧ u.busReads = b.busReads + (n + 1) := by
  have hids := forall_lt_of_range' (a := 0) (n := n + 1) (by omega)
  obtain ⟨hreplies, hreads⟩ := scanLoop_bus hids b
  rw [List.length_range', h] at hreplies hreads
  refine ⟨?_, hreplies, hreads⟩
  rw [List.range'_succ] at h hids
  obtain ⟨hfirst, hlater⟩ := List.forall_mem_cons.mp hids
  have hack := scanLoop_ackSize hlater (scanProbe_effect b hfirst).1
  rwa [← scanLoop_cons, h] at hack

/-- Settles O38: the mirrors, the ids found and the bus are those of the loop (`scanLoop_all`, `scanLoop_all_bus`). -/
theorem scanProbesEveryId : Obligations.ScanProbesEveryId := by
  intro s
  refine ⟨fun hclosed => failsWith_of_hostCheck rfl (checkPort_of_closed hclosed), fun _ hopen => ?_⟩
  obtain ⟨⟨u, found⟩, hloop⟩ :
    ∃ r, scanLoop (List.range' 0 255) ((s.accept (some ⟨0x0D#8, []⟩)).selectTimeout .scan) = r := ⟨_, rfl⟩
  obtain ⟨hack, hreplies, hreads⟩ := scanLoop_all_bus (n := 254) (by decide) hloop
  obtain ⟨hkept, hfound, hread, hkeep⟩ := scanLoop_all (by decide) hloop
  have hfound : found = (List.range 255).filter (fun id => accepted 10 (s.answerAt id 10)) := hfound
  refine ⟨_, found, exec_scan_of_open hopen hloop, hfound, ⟨hkept.op, rfl⟩, rfl, fun id idx hid hi => ?_,
    fun idx => hkeep 255 idx (by decide), hreplies, hreads, hack, hkept.cfg, hkept.baudRate, hkept.settleDelay, rfl,
    hkept.portOpen, rfl, hkept.crcOut, hkept.pending, hkept.internal, rfl⟩
  have hmem : id ∈ found ↔ accepted 10 (s.answerAt id 10) = true := by simp [hfound, hid]
  simp only [hmem]
  exact hread id idx hid hi

/-- Settles O39: the loop's events between the two timeout selections (`scanLoop_trace`), each ping's frame being that of a
fresh mirror (`hdrFrame_install`). -/
theorem scanEventsInOrder : Obligations.ScanEventsInOrder := by
  intro s t st d hw hopen hd hr he
  obtain ⟨⟨u, found⟩, hloop⟩ :
    ∃ r, scanLoop (List.range' 0 255) ((s.accept (some ⟨0x0D#8, []⟩)).selectTimeout .scan) = r := ⟨_, rfl⟩
  obtain rfl := Host.Outcome.next.inj ((exec_scan_of_open hopen hloop).symm.trans he)
  have htrace := scanLoop_trace (a := 0) (n := 255) (by decide) ((s.accept (some ⟨0x0D#8, []⟩)).selectTimeout .scan)
    (F := fun id => buildFrame s.cfg.cmd (BitVec.ofNat 8 id) .ping s.cfg.scanFamily st []) fun v id hv hid => by
      have hcfg : v.cfg = s.cfg := hv
      rw [hdrFrame_install v (by rw [hcfg]; exact hw) (by rw [hcfg]; exact hd) hr hid, hcfg]
  rw [hloop] at htrace
  rw [State.finish_trace, State.recordScanned_trace, State.selectTimeout_trace, htrace, List.range_eq_range']
  rfl

end Sys2Proof.Machine
end

-- ==== The peripheral accessors (43_peripherals.md) ====
section
/-! PROOFS. An accessor expands to `get_variables` or `set_variables`: it makes the same checks after its own, and its body is the
other's with a change of the result. An expansion passes errors on and has the effect of the operation it expands to; and from
these the accessors (O45, O46, O54) and `get_driver_info` (O47). -/

namespace Sys2Proof.Machine

/-! ## What is latched is not read -/

/-- A state with another operation latched (10_state.md R57). -/
def State.latch (s : State) (req : Option HostReq) : State := { s with op := req }

theorem State.takeReply_latch (s : State) (req : Option HostReq) (r : Reply) :
    (s.latch req).takeReply r = ((s.takeReply r).1.latch req, (s.takeReply r).2) := by
  cases r with
  | decoded slot ws =>
    simp only [State.takeReply, State.commit]
    split <;> rfl
  | _ => rfl

theorem State.ackProtocol_latch (s : State) (req : Option HostReq) :
    (s.latch req).ackProtocol = (s.ackProtocol.1.latch req, s.ackProtocol.2) :=
  State.takeReply_latch (s.readReply s.ackSize) req _

theorem valuesResult_latch (s : State) (req : Option HostReq) (a : Ack) (id : Nat) (indices : List Int) :
    valuesResult (s.latch req, a) id indices
      = ((valuesResult (s, a) id indices).1.latch req, (valuesResult (s, a) id indices).2) := by
  cases a <;> rfl

theorem valuesResult_ackProtocol_latch (s : State) (req : Option HostReq) (id : Nat) (indices : List Int) :
    valuesResult (s.latch req).ackProtocol id indices
      = ((valuesResult s.ackProtocol id indices).1.latch req, (valuesResult s.ackProtocol id indices).2) := by
  rw [State.ackProtocol_latch, valuesResult_latch]

theorem State.preWrite_latch (s : State) (req : Option HostReq) (id : Nat) (pairs : List (Int × Value)) :
    (s.latch req).preWrite id pairs = (s.preWrite id pairs).latch req := by
  unfold State.preWrite
  split <;> rfl

theorem bodyGetVariables_latch (s : State) (req : Option HostReq) (id : Nat) (indices : List Int) :
    bodyGetVariables id indices (s.latch req)
      = ((bodyGetVariables id indices s).1.latch req, (bodyGetVariables id indices s).2) :=
  valuesResult_ackProtocol_latch (s.requestRead id indices) req id indices

theorem bodySetVariables_latch (s : State) (req : Option HostReq) (id : Nat) (pairs : List (Int × Value)) (ack : Bool) :
    bodySetVariables id pairs ack (s.latch req)
      = ((bodySetVariables id pairs ack s).1.latch req, (bodySetVariables id pairs ack s).2) := by
  unfold bodySetVariables
  rw [State.preWrite_latch]
  split
  · exact valuesResult_ackProtocol_latch ((s.preWrite id pairs).requestWrite id pairs ack) req id (pairs.map (·.1))
  · rfl

/-! ## Operations to expand to -/

theorem valuesResult_ne_error (r : State × Ack) (id : Nat) (indices : List Int) (e : ErrorCode) :
    (valuesResult r id indices).2 ≠ .error e := by
  unfold valuesResult
  split <;> simp

/-- What `get_variables` and `set_variables` have in common: the body reads nothing of what is latched, and only the checks
give an error (60_exceptions.md R360). -/
structure Transfer (j : Instr) : Prop where
  latch : ∀ p u req, hostBody p j (State.latch u req) = ((hostBody p j u).1.latch req, (hostBody p j u).2)
  ne_error : ∀ p u e, (hostBody p j u).2 ≠ .error e

theorem transfer_getVariables (id : Int) (indices : List Int) : Transfer (.getVariables id indices) :=
  ⟨fun _ u req => bodyGetVariables_latch u req id.toNat indices, fun _ _ e => valuesResult_ne_error _ id.toNat indices e⟩

theorem transfer_setVariables (id : Int) (pairs : List (Int × Value)) (ack : Bool) :
    Transfer (.setVariables id pairs ack) := by
  refine ⟨fun _ u req => bodySetVariables_latch u req id.toNat pairs ack, fun _ u e => ?_⟩
  simp only [hostBody, bodySetVariables]
  split
  · exact valuesResult_ne_error _ _ _ e
  · simp

/-- An operation whose body gives no error fails by its checks only (60_exceptions.md R360). -/
theorem Transfer.hostCheck_of_failsWith {j : Instr} (hj : Transfer j) {req : HostReq} {s : State} {e : ErrorCode}
    (hreq : hostRequest j = some req) (h : failsWith j s req e) : hostCheck j s = some e := by
  obtain ⟨t, he, ht⟩ := h
  have hresult : t.result = some (.error e) := by rw [ht]
  cases hc : hostCheck j s with
  | none =>
    rw [exec_of_hostCheck_none hreq hc] at he
    obtain rfl := Host.Outcome.next.inj he
    exact absurd (Option.some.inj hresult) (hj.ne_error _ _ e)
  | some e' =>
    obtain ⟨t', he', ht'⟩ := failsWith_of_hostCheck hreq hc
    obtain rfl := Host.Outcome.next.inj (he.symm.trans he')
    have hresult' : t.result = some (.error e') := by rw [ht']
    rw [Result.error.inj (Option.some.inj (hresult'.symm.trans hresult))]

/-! ## Expansions -/

/-- In the state s the operation i expands to j: i's checks say what j's say, and i's body is j's with the result changed by g
(30_encoding.md R164, 43_peripherals.md R331, R345). -/
structure ExpandsTo (s : State) (i j : Instr) (g : Result → Result) : Prop where
  check : hostCheck i s = hostCheck j s
  body : ∀ u : State, u.cfg = s.cfg → hostBody s.cfg i u = ((hostBody s.cfg j u).1, g (hostBody s.cfg j u).2)

/-- An expansion passes on each error of the operation it expands to. -/
theorem ExpandsTo.failsWith {s : State} {i j : Instr} {g : Result → Result} (h : ExpandsTo s i j g) (hj : Transfer j)
    {req req' : HostReq} (hi : hostRequest i = some req) (hj' : hostRequest j = some req') {e : ErrorCode}
    (he : failsWith j s req' e) : failsWith i s req e :=
  failsWith_of_hostCheck hi (h.check.trans (hj.hostCheck_of_failsWith hj' he))

/-- An expansion has the effect of the operation it expands to, but for what is latched and the result. -/
theorem ExpandsTo.exec {s : State} {i j : Instr} {g : Result → Result} (h : ExpandsTo s i j g) (hj : Transfer j)
    {req req' : HostReq} (hi : hostRequest i = some req) (hj' : hostRequest j = some req') (hc : hostCheck j s = none) :
    ∃ t r, exec j s = .next t ∧ t.result = some r ∧ r = (hostBody s.cfg j (s.accept (some req'))).2
      ∧ exec i s = .next { t with op := some req, result := some (g r) } := by
  refine ⟨_, _, exec_of_hostCheck_none hj' hc, rfl, rfl, ?_⟩
  have hlatch : s.accept (some req) = (s.accept (some req')).latch (some req) := rfl
  have hbody := h.body (s.accept (some req)) rfl
  rw [hlatch, hj.latch] at hbody
  rw [exec_of_hostCheck_none hi (h.check.trans hc), hlatch, hbody]
  rfl

/-! ## Getters -/

theorem checkModule_of_out_of_range {m : Int} (h : m < 1 ∨ 5 < m) : checkModule m = some .moduleId := by
  obtain h | h := h <;> simp [checkModule, h]

theorem checkModule_of_mem {m : Int} (h1 : 1 ≤ m) (h5 : m ≤ 5) : checkModule m = none :=
  (checkModule_eq_none_iff m).mpr ⟨h1, h5⟩

theorem firstError_singleton (e : Option ErrorCode) : firstError [e] = e := by cases e <;> rfl

/-- The getter i of kind k, with its result transformation (43_peripherals.md R331 to R341). -/
structure Getter (i : Instr) (k : ModuleKind) (id m : Int) (p : Params) (post : Value → Value) : Prop where
  check : ∀ s, hostCheck i s = checkGetter s k id m
  body : hostBody p i = bodyGetter k id m post

/-- A getter of no module fails before anything else is checked (43_peripherals.md R330). -/
theorem Getter.failsWith_moduleId {i : Instr} {req : HostReq} {k : ModuleKind} {id m : Int} {s : State}
    {post : Value → Value} (hi : Getter i k id m s.cfg post) (hreq : hostRequest i = some req) (h : m < 1 ∨ 5 < m) :
    failsWith i s req .moduleId := failsWith_of_hostCheck hreq <| by
  rw [hi.check, checkGetter, checkModule_of_out_of_range h, firstError_cons_some]

/-- A getter of a module 1..5 expands to `get_variables` of the module's Index (43_peripherals.md R331). -/
theorem Getter.expandsTo {i : Instr} {k : ModuleKind} {id m : Int} {s : State} {post : Value → Value}
    (hi : Getter i k id m s.cfg post) (h1 : 1 ≤ m) (h5 : m ≤ 5) :
    ExpandsTo s i (.getVariables id [(s.cfg.bank.base k : Int) + (m - 1)]) (mapSingle post) where
  check := by
    rw [hi.check, checkGetter, checkModule_of_mem h1 h5, firstError_cons_none, firstError_singleton]
    rfl
  body u hu := by
    rw [hi.body, bodyGetter, hu]
    rfl

/-- The Index of a module 1..5 is defined (10_state.md R39, 43_peripherals.md R330). -/
theorem isSome_findInt_module {p : Params} (hw : p.wf = true) (k : ModuleKind) {m : Int} (h1 : 1 ≤ m) (h5 : m ≤ 5) :
    (p.regmap.findInt ((p.bank.base k : Int) + (m - 1))).isSome = true := by
  have hindex : (p.bank.base k : Int) + (m - 1) = ((p.bank.base k + (m - 1).toNat : Nat) : Int) := by omega
  rw [hindex, RegMap.findInt_natCast]
  exact Params.bank_defined hw k (by omega)

theorem mapSingle_of_not_single (post : Value → Value) {r : Result} (h : ∀ v, r ≠ .values [v]) : mapSingle post r = r := by
  unfold mapSingle
  split
  · exact absurd rfl (h _)
  · rfl

/-- A getter of a module 1..5 of an attached id has the effect of `get_variables` (43_peripherals.md R331). -/
theorem Getter.readsModule {i : Instr} {req : HostReq} {k : ModuleKind} {id m : Int} {s : State} {post : Value → Value}
    (hi : Getter i k id m s.cfg post) (hreq : hostRequest i = some req) (hw : s.cfg.wf = true) (hready : s.ready id)
    (h1 : 1 ≤ m) (h5 : m ≤ 5) (hack : readAckLen s.cfg.regmap [(s.cfg.bank.base k : Int) + (m - 1)] ≤ 255) :
    readsModule s i req id m k post := by
  obtain ⟨h0, h255, ha, hopen⟩ := hready
  have hknown := isSome_findInt_module hw k h1 h5
  have hnone : hostCheck (.getVariables id [(s.cfg.bank.base k : Int) + (m - 1)]) s = none :=
    (checkGetVariables_eq_none_iff ..).mpr
      ⟨h0, by omega, ha, by simp, by simpa using hknown, Nat.le_of_ble_eq_true rfl, hack, hopen⟩
  have htransfer := transfer_getVariables id [(s.cfg.bank.base k : Int) + (m - 1)]
  obtain ⟨t, r, hexec, hr, hbody, hi⟩ := (hi.expandsTo h1 h5).exec htransfer hreq rfl hnone
  exact ⟨t, r, mapSingle post r, hexec, hr, hbody ▸ htransfer.ne_error _ _, fun v hv => hv ▸ rfl,
    mapSingle_of_not_single post, hi⟩

/-- A low bit of a QTR byte, in integers (43_peripherals.md R337). -/
theorem qtrBit_eq (v : Int) {i : Nat} (hi : i < 3) : qtrBit v i = v / (2 ^ i : Nat) % 2 := by
  have hbit : (BitVec.ofInt 8 v).getLsbD i = decide (v / (2 ^ i : Nat) % 2 = 1) := by
    rw [← BitVec.testBit_toNat, Nat.testBit_eq_decide_div_mod_eq, BitVec.toNat_ofInt, decide_eq_decide]
    interval_cases i <;> norm_num <;> omega
  rw [qtrBit, hbit]
  simp only [decide_eq_true_eq]
  omega

theorem postQtr_eq_qtrValue (o : QtrOrder) : postQtr o = qtrValue o := by
  funext v
  cases v with
  | tuple vs => rfl
  | scalar v => cases o <;> simp [postQtr, qtrValue, qtrBit_eq]

theorem getter_getButton (id m : Int) (p : Params) : Getter (.getButton id m) .button id m p (fun v => v) :=
  ⟨fun _ => rfl, rfl⟩

theorem getter_getLight (id m : Int) (p : Params) : Getter (.getLight id m) .light id m p (fun v => v) :=
  ⟨fun _ => rfl, rfl⟩

theorem getter_getJoystick (id m : Int) (p : Params) : Getter (.getJoystick id m) .joystick id m p (fun v => v) :=
  ⟨fun _ => rfl, rfl⟩

theorem getter_getDistance (id m : Int) (p : Params) : Getter (.getDistance id m) .distance id m p (fun v => v) :=
  ⟨fun _ => rfl, rfl⟩

theorem getter_getQtr (id m : Int) (p : Params) : Getter (.getQtr id m) .qtr id m p (qtrValue p.qtrOrder) :=
  ⟨fun _ => rfl, by rw [← postQtr_eq_qtrValue]; rfl⟩

theorem getter_getPotentiometer (id m : Int) (p : Params) :
    Getter (.getPotentiometer id m) .potentiometer id m p (fun v => v) := ⟨fun _ => rfl, rfl⟩

theorem getter_getImu (id m : Int) (p : Params) : Getter (.getImu id m) .imu id m p (fun v => v) :=
  ⟨fun _ => rfl, rfl⟩

/-- Settles O45: each of the seven getters expands to `get_variables` (`Getter.readsModule`). -/
theorem gettersReadTheirModule : Obligations.GettersReadTheirModule := by
  intro s id m hw hready h1 h5 hack
  exact ⟨(getter_getButton id m s.cfg).readsModule rfl hw hready h1 h5 (hack .button),
    (getter_getLight id m s.cfg).readsModule rfl hw hready h1 h5 (hack .light),
    (getter_getJoystick id m s.cfg).readsModule rfl hw hready h1 h5 (hack .joystick),
    (getter_getDistance id m s.cfg).readsModule rfl hw hready h1 h5 (hack .distance),
    (getter_getQtr id m s.cfg).readsModule rfl hw hready h1 h5 (hack .qtr),
    (getter_getPotentiometer id m s.cfg).readsModule rfl hw hready h1 h5 (hack .potentiometer),
    (getter_getImu id m s.cfg).readsModule rfl hw hready h1 h5 (hack .imu)⟩

/-! ## Setters -/

/-- The setter i of kind k, with its own range check and its value (43_peripherals.md R331, R334, R338, R340). -/
structure Setter (i : Instr) (k : ModuleKind) (id m : Int) (range : Option ErrorCode) (v : Value) : Prop where
  check : ∀ s, hostCheck i s = checkSetter s k id m range v
  body : ∀ p, hostBody p i = bodySetter k id m v

theorem setter_setBuzzer (id m : Int) (v : Value) : Setter (.setBuzzer id m v) .buzzer id m none v :=
  ⟨fun _ => rfl, fun _ => rfl⟩

theorem setter_setServo (id m v : Int) : Setter (.setServo id m v) .servo id m (checkByte v) (.scalar v) :=
  ⟨fun _ => rfl, fun _ => rfl⟩

theorem setter_setRgb (id m r g b : Int) :
    Setter (.setRgb id m r g b) .rgb id m (firstError [checkByte r, checkByte g, checkByte b])
      (.scalar (r + g * 256 + b * 65536)) := ⟨fun _ => rfl, fun _ => rfl⟩

theorem checkByte_of_mem {v : Int} (h0 : 0 ≤ v) (h255 : v ≤ 255) : checkByte v = none :=
  (checkByte_eq_none_iff v).mpr ⟨h0, h255⟩

/-- The channels of set_rgb pass its own check (43_peripherals.md R340). -/
theorem checkChannels_of_mem {r g b : Int} (hr0 : 0 ≤ r) (hr : r ≤ 255) (hg0 : 0 ≤ g) (hg : g ≤ 255) (hb0 : 0 ≤ b)
    (hb : b ≤ 255) : firstError [checkByte r, checkByte g, checkByte b] = none := by
  rw [checkByte_of_mem hr0 hr, checkByte_of_mem hg0 hg, checkByte_of_mem hb0 hb]
  rfl

/-- set_servo of a value 0..255 has passed its own check (43_peripherals.md R338). -/
theorem setter_setServo_of_mem (id m : Int) {v : Int} (h0 : 0 ≤ v) (h255 : v ≤ 255) :
    Setter (.setServo id m v) .servo id m none (.scalar v) :=
  checkByte_of_mem h0 h255 ▸ setter_setServo id m v

/-- set_rgb of channels 0..255 has passed its own check (43_peripherals.md R340). -/
theorem setter_setRgb_of_mem (id m : Int) {r g b : Int} (hr0 : 0 ≤ r) (hr : r ≤ 255) (hg0 : 0 ≤ g) (hg : g ≤ 255)
    (hb0 : 0 ≤ b) (hb : b ≤ 255) : Setter (.setRgb id m r g b) .rgb id m none (.scalar (r + g * 256 + b * 65536)) :=
  checkChannels_of_mem hr0 hr hg0 hg hb0 hb ▸ setter_setRgb id m r g b

/-- For any id but 255 it does not matter to `check_id` whether broadcast is accepted (42_bus_master.md R253). -/
theorem checkId_of_ne_broadcast {id : Int} (h : id ≠ 255) (b : Bool) : checkId id b = checkId id true := by
  simp [checkId, h]

/-- A check made twice in a row says what it says once. -/
theorem firstError_cons_firstError_cons (e : Option ErrorCode) (l : List (Option ErrorCode)) :
    firstError [e, firstError (e :: l)] = firstError (e :: l) := by
  cases e
  · exact firstError_singleton _
  · rfl

/-- A setter of a module 1..5 of an id other than 255, its own range check passed, expands to an unacknowledged
`set_variables` of the module's Index (43_peripherals.md R331, log 23). -/
theorem Setter.expandsTo {i : Instr} {k : ModuleKind} {id m : Int} {v : Value} (hi : Setter i k id m none v) (s : State)
    (h1 : 1 ≤ m) (h5 : m ≤ 5) (hid : id ≠ 255) :
    ExpandsTo s i (.setVariables id [((s.cfg.bank.base k : Int) + (m - 1), v)] false) (fun r => r) where
  check := by
    rw [hi.check, checkSetter, checkModule_of_mem h1 h5, firstError_cons_none, firstError_cons_none,
      checkId_of_ne_broadcast hid, checkSetVariables, firstError_cons_firstError_cons]
    rfl
  body u hu := by
    rw [hi.body, bodySetter, hu]
    rfl

/-- A setter of a module 1..5 of an attached id has the effect of `set_variables` (43_peripherals.md R331). -/
theorem Setter.writesModule {i : Instr} {req : HostReq} {k : ModuleKind} {id m : Int} {v : Value} {s : State}
    (hi : Setter i k id m none v) (hreq : hostRequest i = some req) (hready : s.ready id) (h1 : 1 ≤ m) (h5 : m ≤ 5)
    (hv : writable s.cfg ((s.cfg.bank.base k : Int) + (m - 1)) v)
    (hlen : writeLen s.cfg.regmap [((s.cfg.bank.base k : Int) + (m - 1), v)] ≤ 255) :
    writesModule s i req id m k v := by
  obtain ⟨h0, h255, ha, hopen⟩ := hready
  have hnone : hostCheck (.setVariables id [((s.cfg.bank.base k : Int) + (m - 1), v)] false) s = none :=
    checkSetVariables_of_writable h0 h255.le ha hopen (by simp) (by simpa using hv) hlen
  obtain ⟨t, r, hexec, hr, rfl, hi⟩ := (hi.expandsTo s h1 h5 h255.ne).exec (transfer_setVariables ..) hreq rfl hnone
  refine ⟨t, hexec, hr, ?_⟩
  rw [hi, ← hr]

/-- Only a format of one field takes a scalar (10_state.md R42). -/
theorem fmt_of_shapeOk_scalar {fmt : List Prim} {v : Int} (h : shapeOk fmt (.scalar v) = true) : ∃ t, fmt = [t] := by
  match fmt, h with
  | [t], _ => exact ⟨t, rfl⟩
  | [], h => cases h
  | _ :: _ :: _, h => cases h

/-- The write of one scalar has a frame: a format of one field is at most four bytes wide (10_state.md R32, R42). -/
theorem writeLen_scalar_le {p : Params} {i v : Int} (h : writable p i (.scalar v)) :
    writeLen p.regmap [(i, .scalar v)] ≤ 255 := by
  obtain ⟨d, hd, hfit, -⟩ := h
  have hwidth : p.regmap.widthInt i ≤ 4 := by
    simp only [fits, Bool.and_eq_true] at hfit
    obtain ⟨t, ht⟩ := fmt_of_shapeOk_scalar hfit.1
    simpa [RegMap.widthInt, hd, Descriptor.width, ht, fmtWidth] using t.width_le
  simp only [writeLen, List.map_cons, List.map_nil, sizeOfIndices, hdrLen, crcLen]
  omega

/-- Settles O46: each of the three setters expands to `set_variables` (`Setter.writesModule`). -/
theorem settersWriteTheirModule : Obligations.SettersWriteTheirModule := by
  intro s id m hready h1 h5
  refine ⟨fun v hv hlen => ?_, fun v h0 h255 hv => ?_, fun r g b hr0 hr hg0 hg hb0 hb hv => ?_⟩
  · exact (setter_setBuzzer id m v).writesModule rfl hready h1 h5 hv hlen
  · exact (setter_setServo_of_mem id m h0 h255).writesModule rfl hready h1 h5 hv (writeLen_scalar_le hv)
  · exact (setter_setRgb_of_mem id m hr0 hr hg0 hg hb0 hb).writesModule rfl hready h1 h5 hv (writeLen_scalar_le hv)

/-! ## The checks of an accessor -/

/-- A setter of no module fails before anything else is checked (43_peripherals.md R330). -/
theorem Setter.failsWith_moduleId {i : Instr} {req : HostReq} {k : ModuleKind} {id m : Int} {range : Option ErrorCode}
    {v : Value} (hi : Setter i k id m range v) (hreq : hostRequest i = some req) (h : m < 1 ∨ 5 < m) (s : State) :
    failsWith i s req .moduleId := failsWith_of_hostCheck hreq <| by
  rw [hi.check, checkSetter, checkModule_of_out_of_range h, firstError_cons_some]

/-- A setter's own range is checked after the module identifier (43_peripherals.md R338, R340). -/
theorem Setter.failsWith_range {i : Instr} {req : HostReq} {k : ModuleKind} {id m : Int} {e : ErrorCode} {v : Value}
    (hi : Setter i k id m (some e) v) (hreq : hostRequest i = some req) (h1 : 1 ≤ m) (h5 : m ≤ 5) (s : State) :
    failsWith i s req e := failsWith_of_hostCheck hreq <| by
  rw [hi.check, checkSetter, checkModule_of_mem h1 h5, firstError_cons_none, firstError_cons_some]

/-- A setter of id 255 fails before the checks of `set_variables` (60_exceptions.md R363, log 23). -/
theorem Setter.failsWith_broadcast {i : Instr} {req : HostReq} {k : ModuleKind} {m : Int} {v : Value}
    (hi : Setter i k 255 m none v) (hreq : hostRequest i = some req) (h1 : 1 ≤ m) (h5 : m ≤ 5) (s : State) :
    failsWith i s req .broadcast := failsWith_of_hostCheck hreq <| by
  rw [hi.check, checkSetter, checkModule_of_mem h1 h5, checkId_broadcast, firstError_cons_none, firstError_cons_none,
    firstError_cons_some]

/-- set_rgb's own check fails for any channel outside 0..255 (43_peripherals.md R340). -/
theorem checkChannels_of_out_of_range {r g b : Int} (h : (r < 0 ∨ 255 < r) ∨ (g < 0 ∨ 255 < g) ∨ (b < 0 ∨ 255 < b)) :
    firstError [checkByte r, checkByte g, checkByte b] = some .valueRange := by
  have hcheck : ∀ v, checkByte v = none ∨ checkByte v = some .valueRange := fun v => by
    by_cases hv : v < 0 ∨ 255 < v
    · exact .inr (checkByte_of_out_of_range hv)
    · exact .inl (checkByte_of_mem (by omega) (by omega))
  obtain hr | hg | hb := h
  · rw [checkByte_of_out_of_range hr, firstError_cons_some]
  · obtain e | e := hcheck r <;> simp [e, checkByte_of_out_of_range hg]
  · obtain e | e := hcheck r <;> obtain e' | e' := hcheck g <;> simp [e, e', checkByte_of_out_of_range hb]

/-- A getter of a module 1..5 passes on each error of `get_variables` (43_peripherals.md R331). -/
theorem Getter.failsWith {i : Instr} {req : HostReq} {k : ModuleKind} {id m : Int} {s : State} {post : Value → Value}
    (hi : Getter i k id m s.cfg post) (hreq : hostRequest i = some req) (h1 : 1 ≤ m) (h5 : m ≤ 5) {e : ErrorCode}
    (he : failsWith (.getVariables id [(s.cfg.bank.base k : Int) + (m - 1)]) s
      ⟨0x04#8, [.int id, .ints [(s.cfg.bank.base k : Int) + (m - 1)]]⟩ e) : failsWith i s req e :=
  (hi.expandsTo h1 h5).failsWith (transfer_getVariables ..) hreq rfl he

/-- A setter of a module 1..5 of an id other than 255 passes on each error of `set_variables` (43_peripherals.md R331). -/
theorem Setter.failsWith {i : Instr} {req : HostReq} {k : ModuleKind} {id m : Int} {v : Value} (hi : Setter i k id m none v)
    (hreq : hostRequest i = some req) (h1 : 1 ≤ m) (h5 : m ≤ 5) (hid : id ≠ 255) {s : State} {e : ErrorCode}
    (he : failsWith (.setVariables id [((s.cfg.bank.base k : Int) + (m - 1), v)] false) s
      ⟨0x03#8, [.int id, .pairs [((s.cfg.bank.base k : Int) + (m - 1), v)], .bool false]⟩ e) : failsWith i s req e :=
  (hi.expandsTo s h1 h5 hid).failsWith (transfer_setVariables ..) hreq rfl he

/-- Settles O54: the first error of each check list, and the error an expansion passes on (`Getter.failsWith`,
`Setter.failsWith`). -/
theorem accessorChecksComeFirst : Obligations.AccessorChecksComeFirst := by
  intro s id m v r g b w
  refine ⟨fun hm => ⟨?_, ?_, ?_, ?_⟩, fun h1 h5 => ⟨fun hv => ?_, fun hc => ?_, ?_, fun hid k u err herr => ⟨?_, ?_, ?_⟩, ?_⟩⟩
  · simp only [List.forall_mem_cons, List.not_mem_nil, false_imp_iff, implies_true, and_true]
    exact ⟨(getter_getButton id m s.cfg).failsWith_moduleId rfl hm, (getter_getLight id m s.cfg).failsWith_moduleId rfl hm,
      (getter_getJoystick id m s.cfg).failsWith_moduleId rfl hm, (getter_getDistance id m s.cfg).failsWith_moduleId rfl hm,
      (getter_getQtr id m s.cfg).failsWith_moduleId rfl hm, (getter_getPotentiometer id m s.cfg).failsWith_moduleId rfl hm,
      (getter_getImu id m s.cfg).failsWith_moduleId rfl hm⟩
  · exact (setter_setBuzzer id m w).failsWith_moduleId rfl hm s
  · exact (setter_setServo id m v).failsWith_moduleId rfl hm s
  · exact (setter_setRgb id m r g b).failsWith_moduleId rfl hm s
  · have hi := setter_setServo id m v
    rw [checkByte_of_out_of_range hv] at hi
    exact hi.failsWith_range rfl h1 h5 s
  · have hi := setter_setRgb id m r g b
    rw [checkChannels_of_out_of_range hc] at hi
    exact hi.failsWith_range rfl h1 h5 s
  · rintro rfl
    exact ⟨(setter_setBuzzer 255 m w).failsWith_broadcast rfl h1 h5 s,
      fun h0 h255 => (setter_setServo_of_mem 255 m h0 h255).failsWith_broadcast rfl h1 h5 s,
      fun hr0 hr hg0 hg hb0 hb => (setter_setRgb_of_mem 255 m hr0 hr hg0 hg hb0 hb).failsWith_broadcast rfl h1 h5 s⟩
  · rintro rfl
    exact (setter_setBuzzer id m u).failsWith rfl h1 h5 hid herr
  · rintro rfl h0 h255 rfl
    exact (setter_setServo_of_mem id m h0 h255).failsWith rfl h1 h5 hid herr
  · rintro rfl hr0 hr hg0 hg hb0 hb rfl
    exact (setter_setRgb_of_mem id m hr0 hr hg0 hg hb0 hb).failsWith rfl h1 h5 hid herr
  · rintro k e he rfl err herr
    simp only [List.mem_cons, List.not_mem_nil, or_false] at he
    obtain rfl | rfl | rfl | rfl | rfl | rfl | rfl := he
    · exact (getter_getButton id m s.cfg).failsWith rfl h1 h5 herr
    · exact (getter_getLight id m s.cfg).failsWith rfl h1 h5 herr
    · exact (getter_getJoystick id m s.cfg).failsWith rfl h1 h5 herr
    · exact (getter_getDistance id m s.cfg).failsWith rfl h1 h5 herr
    · exact (getter_getQtr id m s.cfg).failsWith rfl h1 h5 herr
    · exact (getter_getPotentiometer id m s.cfg).failsWith rfl h1 h5 herr
    · exact (getter_getImu id m s.cfg).failsWith rfl h1 h5 herr

/-! ## Driver information -/

/-- `get_driver_info` expands to one `get_variables` of the two versions, with no check of its own (43_peripherals.md R345). -/
theorem expandsTo_getDriverInfo (s : State) (id : Int) : ExpandsTo s (.getDriverInfo id)
    (.getVariables id [(s.cfg.regmap.hardwareVersion : Int), (s.cfg.regmap.softwareVersion : Int)]) toVersions where
  check := rfl
  body u hu := by
    simp only [hostBody, hu]
    rfl

theorem toVersions_of_not_pair {r : Result} (h : ∀ v w, r ≠ .values [v, w]) : toVersions r = r := by
  unfold toVersions
  split
  · exact absurd rfl (h _ _)
  · rfl

/-- An index of a four-byte integer format is four bytes wide (10_state.md R32, R38). -/
theorem widthInt_of_word_fmt {rm : RegMap} {idx : Nat} {d : Descriptor} (hd : rm.find idx = some d)
    (hf : d.fmt = [.u32] ∨ d.fmt = [.i32]) : rm.widthInt idx = 4 := by
  obtain hf | hf := hf <;> simp [RegMap.widthInt, hd, Descriptor.width, hf, fmtWidth, Prim.width]

/-- A ready device passes the checks of `get_driver_info`: the versions are defined and four bytes wide (43_peripherals.md
R345, 10_state.md R38). -/
theorem State.ready.checkVersions {s : State} {id : Int} (h : s.ready id) (hw : s.cfg.wf = true) :
    checkGetVariables s id [(s.cfg.regmap.hardwareVersion : Int), (s.cfg.regmap.softwareVersion : Int)] = none := by
  obtain ⟨h0, h255, ha, hopen⟩ := h
  obtain ⟨d, hd, hf⟩ := Params.hardwareVersion_fmt hw
  obtain ⟨d', hd', hf'⟩ := Params.softwareVersion_fmt hw
  refine (checkGetVariables_eq_none_iff ..).mpr ⟨h0, by omega, ha, by simp, by simp [hd, hd'],
    Nat.le_of_ble_eq_true rfl, ?_, hopen⟩
  simp [readAckLen, sizeOfIndices, widthInt_of_word_fmt hd hf, widthInt_of_word_fmt hd' hf', hdrLen, crcLen]

/-- Settles O47: `get_driver_info` expands to `get_variables` (`expandsTo_getDriverInfo`). -/
theorem driverInfoReadsTheVersions : Obligations.DriverInfoReadsTheVersions := by
  intro s id
  have hexp := expandsTo_getDriverInfo s id
  have htransfer :=
    transfer_getVariables id [(s.cfg.regmap.hardwareVersion : Int), (s.cfg.regmap.softwareVersion : Int)]
  refine ⟨fun err herr => hexp.failsWith htransfer rfl rfl herr, fun hw hready => ?_⟩
  obtain ⟨t, r, hexec, hr, hbody, hi⟩ := hexp.exec htransfer rfl rfl (hready.checkVersions hw)
  exact ⟨t, r, toVersions r, hexec, hr, hbody ▸ htransfer.ne_error _ _, fun a b hv => hv ▸ rfl, toVersions_of_not_pair, hi⟩

end Sys2Proof.Machine
end

-- ==== Errors and the order of the checks (60_exceptions.md) ====
section
/-! PROOFS. Only a check gives an error, so an error has no other effect (O48); and the check lists of the transfers in order,
each with the checks that pass struck off its front: the writes (O51), the reads (O52) and the synchronized writes (O53). -/

namespace Sys2Proof.Machine

/-! ## Only a check gives an error -/

theorem mapSingle_ne_error {post : Value → Value} {r : Result} {e : ErrorCode} (h : r ≠ .error e) :
    mapSingle post r ≠ .error e := by
  unfold mapSingle
  split
  · simp
  · exact h

theorem toVersions_ne_error {r : Result} {e : ErrorCode} (h : r ≠ .error e) : toVersions r ≠ .error e := by
  unfold toVersions
  split
  · simp
  · exact h

theorem moduleScanResult_ne_error (s : State) (e : ErrorCode) : (moduleScanResult s).2 ≠ .error e := by
  unfold moduleScanResult
  split
  · simp
  · split <;> simp

/-- No body of a host operation gives an error (60_exceptions.md R360). -/
theorem hostBody_ne_error (p : Params) (i : Instr) (s : State) (e : ErrorCode) : (hostBody p i s).2 ≠ .error e := by
  cases i
  case setVariables id pairs ack => exact (transfer_setVariables id pairs ack).ne_error p s e
  case setBuzzer id _ _ | setServo id _ _ | setRgb id _ _ _ _ => exact (transfer_setVariables id _ false).ne_error p s e
  case getVariables => exact valuesResult_ne_error _ _ _ e
  case getButton | getLight | getJoystick | getDistance | getQtr | getPotentiometer | getImu =>
    exact mapSingle_ne_error (valuesResult_ne_error _ _ _ e)
  case getDriverInfo => exact toVersions_ne_error (valuesResult_ne_error _ _ _ e)
  case scanModules => exact moduleScanResult_ne_error _ e
  case eepromWrite id ack => cases ack <;> exact Result.noConfusion
  all_goals exact Result.noConfusion

/-- Settles O48: what a failed operation leaves is an error's effect (`accept_raiseError_eq`), and one that is run ends in no
error (`hostBody_ne_error`). -/
theorem errorsHaveNoOtherEffect : Obligations.ErrorsHaveNoOtherEffect := by
  intro s t i req e h he hr
  obtain ⟨e', rfl⟩ | ⟨hc, -⟩ := exec_host_cases h he
  · obtain rfl : e' = e := Result.error.inj (Option.some.inj hr)
    exact accept_raiseError_eq s (some req) e'
  · rw [exec_of_hostCheck_none h ((hostCheck_accept ..).symm.trans hc)] at he
    obtain rfl := Host.Outcome.next.inj he
    exact absurd (Option.some.inj hr) (hostBody_ne_error s.cfg i (s.accept (some req)) e)

/-! ## The first error of a list of elements -/

theorem firstError_map_of_passed {α : Type} {check : α → Option ErrorCode} {l : List α} (h : ∀ a ∈ l, check a = none) :
    firstError (l.map check) = none := (firstError_eq_none_iff _).mpr (by simpa using h)

/-- An element is checked after every check of the elements before it has passed (60_exceptions.md R377). -/
theorem firstError_map_of_failed {α : Type} {check : α → Option ErrorCode} {before : List α} {a : α} {e : ErrorCode}
    (hbefore : ∀ b ∈ before, check b = none) (ha : check a = some e) (after : List α) :
    firstError ((before ++ a :: after).map check) = some e := by
  rw [List.map_append, firstError_append, firstError_map_of_passed hbefore, List.map_cons, ha, firstError_cons_some]
  rfl

/-- Checks of one error fail as one. -/
theorem firstError_map_failWhen {α : Type} (c : α → Bool) (e : ErrorCode) (l : List α) :
    firstError (l.map fun a => failWhen (c a) e) = failWhen (l.any c) e := by
  induction l with
  | nil => rfl
  | cons a l ih =>
    rw [List.map_cons, List.any_cons]
    cases c a with
    | true => rfl
    | false => exact ih

theorem failWhen_isEmpty_of_ne {α : Type} {l : List α} (h : l ≠ []) (e : ErrorCode) : failWhen l.isEmpty e = none := by
  rw [List.isEmpty_eq_false_iff.mpr h, failWhen_false]

/-- A frame longer than PackageSize can say (60_exceptions.md R370). -/
theorem failWhen_maxFrame_of_long {n : Nat} (h : 255 < n) (e : ErrorCode) : failWhen (decide (maxFrame < n)) e = some e := by
  rw [decide_eq_true (show maxFrame < n from h), failWhen_true]

theorem failWhen_maxFrame_of_le {n : Nat} (h : n ≤ 255) (e : ErrorCode) : failWhen (decide (maxFrame < n)) e = none := by
  rw [decide_eq_false (show ¬ maxFrame < n from Nat.not_lt.mpr h), failWhen_false]

/-! ## The checks of one value -/

/-- A value of another shape than its descriptor's (60_exceptions.md R369). -/
theorem checkValue_of_misshapen {p : Params} {d : Descriptor} {v : Value} (hs : shapeOk d.fmt v = false) :
    checkValue p d v = some .shape := by
  rw [checkValue, hs]
  rfl

/-- A value of the format of a descriptor that is not mutable, where that is enforced (60_exceptions.md R371). -/
theorem checkValue_of_fits_read_only {p : Params} {d : Descriptor} {v : Value} (hfit : fits d.fmt v = true)
    (he : p.enforceMutable = true) (hm : d.isMutable = false) : checkValue p d v = some .readOnly := by
  rw [fits, Bool.and_eq_true] at hfit
  exact checkValue_of_read_only hfit.1 hfit.2 he hm

theorem checkPair_of_unknown {p : Params} {i : Int} (h : p.regmap.findInt i = none) (v : Value) :
    checkPair p i v = some .unknownIndex := by rw [checkPair, h]

theorem checkPair_of_findInt {p : Params} {i : Int} {d : Descriptor} (h : p.regmap.findInt i = some d) (v : Value) :
    checkPair p i v = checkValue p d v := by rw [checkPair, h]

/-! ## set_variables -/

/-- What is left to check of a write to an attached id (42_bus_master.md R260). -/
theorem checkSetVariables_of_attached {s : State} {id : Int} (h0 : 0 ≤ id) (h255 : id ≤ 255)
    (ha : s.attached id.toNat = true) (pairs : List (Int × Value)) :
    checkSetVariables s id pairs
      = firstError [failWhen pairs.isEmpty .empty, firstError (pairs.map fun q => checkPair s.cfg q.1 q.2),
          failWhen (decide (maxFrame < writeLen s.cfg.regmap pairs)) .frameTooLong, checkPort s] := by
  rw [checkSetVariables, (checkId_eq_none_iff id true).mpr ⟨h0, h255, fun _ => rfl⟩, checkAttached_of_attached ha,
    firstError_cons_none, firstError_cons_none]

/-- The first pair that fails its check gives a write's error (42_bus_master.md R260). -/
theorem checkSetVariables_of_failed_pair {s : State} {id : Int} (h0 : 0 ≤ id) (h255 : id ≤ 255)
    (ha : s.attached id.toNat = true) {before : List (Int × Value)} (hbefore : ∀ q ∈ before, writable s.cfg q.1 q.2)
    {i : Int} {v : Value} {e : ErrorCode} (hpair : checkPair s.cfg i v = some e) (after : List (Int × Value)) :
    checkSetVariables s id (before ++ (i, v) :: after) = some e := by
  rw [checkSetVariables_of_attached h0 h255 ha, failWhen_isEmpty_of_ne (by simp),
    firstError_map_of_failed (fun q hq => checkPair_of_writable (hbefore q hq)) hpair, firstError_cons_none,
    firstError_cons_some]

/-- What is left to check of a write of writable pairs: the length of its frame and the port (42_bus_master.md R260). -/
theorem checkSetVariables_of_pairs {s : State} {id : Int} (h0 : 0 ≤ id) (h255 : id ≤ 255) (ha : s.attached id.toNat = true)
    {pairs : List (Int × Value)} (hne : pairs ≠ []) (hpairs : ∀ q ∈ pairs, writable s.cfg q.1 q.2) :
    checkSetVariables s id pairs
      = firstError [failWhen (decide (maxFrame < writeLen s.cfg.regmap pairs)) .frameTooLong, checkPort s] := by
  rw [checkSetVariables_of_attached h0 h255 ha, failWhen_isEmpty_of_ne hne,
    firstError_map_of_passed fun q hq => checkPair_of_writable (hpairs q hq), firstError_cons_none, firstError_cons_none]

/-- Settles O51: each clause names the first check that fails of those that the clauses before it leave
(`checkSetVariables_of_attached`, `checkSetVariables_of_pairs`). -/
theorem writeChecksInOrder : Obligations.WriteChecksInOrder := by
  intro s id pairs ack fails
  have hfails : ∀ {e}, checkSetVariables s id pairs = some e → fails e := fun hc => failsWith_of_hostCheck rfl hc
  refine ⟨fun hr => hfails ?_, fun h0 h255 => ⟨fun ha => hfails ?_, fun ha => ⟨fun hnil => hfails ?_, ?_, ?_⟩⟩⟩
  · rw [checkSetVariables, checkId_of_out_of_range hr, firstError_cons_some]
  · rw [checkSetVariables, (checkId_eq_none_iff id true).mpr ⟨h0, h255, fun _ => rfl⟩, checkAttached_of_not ha,
      firstError_cons_none, firstError_cons_some]
  · rw [checkSetVariables_of_attached h0 h255 ha, hnil]
    rfl
  · rintro before i v after rfl hbefore
    have hpair : ∀ {e}, checkPair s.cfg i v = some e → fails e :=
      fun h => hfails (checkSetVariables_of_failed_pair h0 h255 ha hbefore h after)
    refine ⟨fun hd => hpair (checkPair_of_unknown hd v), fun d hd => ?_⟩
    have hvalue : ∀ {e}, checkValue s.cfg d v = some e → fails e := fun h => hpair ((checkPair_of_findInt hd v).trans h)
    exact ⟨fun hs => hvalue (checkValue_of_misshapen hs), fun hs hf => hvalue (checkValue_of_out_of_domain hs hf),
      fun hfit he hm => hvalue (checkValue_of_fits_read_only hfit he hm)⟩
  · intro hne hpairs
    have hleft := checkSetVariables_of_pairs h0 h255 ha hne hpairs
    refine ⟨fun hlong => hfails ?_, fun hlen hclosed => hfails ?_⟩
    · rw [hleft, failWhen_maxFrame_of_long hlong, firstError_cons_some]
    · rw [hleft, failWhen_maxFrame_of_le hlen, checkPort_of_closed hclosed, firstError_cons_none, firstError_cons_some]

/-! ## get_variables -/

/-- What is left to check of a read of an attached id: its indices as one (42_bus_master.md R266). -/
theorem checkGetVariables_of_attached {s : State} {id : Int} (h0 : 0 ≤ id) (h254 : id ≤ 254)
    (ha : s.attached id.toNat = true) (indices : List Int) :
    checkGetVariables s id indices
      = firstError [failWhen indices.isEmpty .empty,
          failWhen (indices.any fun i => (s.cfg.regmap.findInt i).isNone) .unknownIndex,
          failWhen (decide (maxFrame < readLen indices) || decide (maxFrame < readAckLen s.cfg.regmap indices)) .frameTooLong,
          checkPort s] := by
  rw [checkGetVariables, checkId_of_unicast h0 h254, checkAttached_of_attached ha, firstError_map_failWhen,
    firstError_cons_none, firstError_cons_none]

/-- What is left to check of a read of known indices: the lengths of its frame and of the reply, and the port
(42_bus_master.md R266). -/
theorem checkGetVariables_of_indices {s : State} {id : Int} (h0 : 0 ≤ id) (h254 : id ≤ 254)
    (ha : s.attached id.toNat = true) {indices : List Int} (hne : indices ≠ [])
    (hknown : ∀ i ∈ indices, (s.cfg.regmap.findInt i).isSome = true) :
    checkGetVariables s id indices
      = firstError [failWhen (decide (maxFrame < readLen indices)
          || decide (maxFrame < readAckLen s.cfg.regmap indices)) .frameTooLong, checkPort s] := by
  have hall : (indices.any fun i => (s.cfg.regmap.findInt i).isNone) = false :=
    List.any_eq_false.mpr fun i hi => by simpa [Option.isSome_iff_ne_none] using hknown i hi
  rw [checkGetVariables_of_attached h0 h254 ha, failWhen_isEmpty_of_ne hne, hall, failWhen_false, firstError_cons_none,
    firstError_cons_none]

/-- Settles O52, as O51, with the indices checked as one (`checkGetVariables_of_attached`). -/
theorem readChecksInOrder : Obligations.ReadChecksInOrder := by
  intro s id indices fails
  have hfails : ∀ {e}, checkGetVariables s id indices = some e → fails e := fun hc => failsWith_of_hostCheck rfl hc
  refine ⟨fun hr => hfails ?_, fun hb => hfails ?_, fun h0 h254 => ⟨fun ha => hfails ?_, fun ha =>
    ⟨fun hnil => hfails ?_, ?_, fun hne hknown => ?_⟩⟩⟩
  · rw [checkGetVariables, checkId_of_out_of_range hr, firstError_cons_some]
  · rw [checkGetVariables, hb, checkId_broadcast, firstError_cons_some]
  · rw [checkGetVariables, checkId_of_unicast h0 h254, checkAttached_of_not ha, firstError_cons_none, firstError_cons_some]
  · rw [checkGetVariables_of_attached h0 h254 ha, hnil]
    rfl
  · rintro ⟨i, hi, hd⟩
    have hany : (indices.any fun i => (s.cfg.regmap.findInt i).isNone) = true :=
      List.any_eq_true.mpr ⟨i, hi, by rw [hd]; rfl⟩
    apply hfails
    rw [checkGetVariables_of_attached h0 h254 ha, failWhen_isEmpty_of_ne (List.ne_nil_of_mem hi), hany, failWhen_true,
      firstError_cons_none, firstError_cons_some]
  · have hleft := checkGetVariables_of_indices h0 h254 ha hne hknown
    refine ⟨fun hlong => hfails ?_, fun hlen hack hclosed => hfails ?_⟩
    · have hover : (decide (maxFrame < readLen indices)
          || decide (maxFrame < readAckLen s.cfg.regmap indices)) = true := by
        simp only [Bool.or_eq_true, decide_eq_true_eq]
        exact hlong
      rw [hleft, hover, failWhen_true, firstError_cons_some]
    · have hfit : (decide (maxFrame < readLen indices)
          || decide (maxFrame < readAckLen s.cfg.regmap indices)) = false := by
        simp only [Bool.or_eq_false_iff, decide_eq_false_iff_not, Nat.not_lt]
        exact ⟨hlen, hack⟩
      rw [hleft, hfit, failWhen_false, checkPort_of_closed hclosed, firstError_cons_none, firstError_cons_some]

/-! ## set_variables_sync -/

/-- The check of one group of a synchronized write: its id, then its value (42_bus_master.md R268). -/
def checkGroup (p : Params) (d : Descriptor) (q : Int × Value) : Option ErrorCode :=
  firstError [checkId q.1 false, checkValue p d q.2]

/-- The value of a group is checked once its id is a unicast one (42_bus_master.md R268). -/
theorem checkGroup_of_unicast {p : Params} {d : Descriptor} {g : Int} (h0 : 0 ≤ g) (h254 : g ≤ 254) (v : Value) :
    checkGroup p d (g, v) = checkValue p d v := by
  rw [checkGroup, checkId_of_unicast h0 h254, firstError_cons_none, firstError_singleton]

/-- A group of a unicast id and a value the host may write passes (42_bus_master.md R268). -/
theorem checkGroup_of_writable {p : Params} {index : Int} {d : Descriptor} (hd : p.regmap.findInt index = some d)
    {q : Int × Value} (hq : 0 ≤ q.1 ∧ q.1 ≤ 254 ∧ writable p index q.2) : checkGroup p d q = none := by
  obtain ⟨h0, h254, hw⟩ := hq
  rw [checkGroup_of_unicast h0 h254, ← checkPair_of_findInt hd, checkPair_of_writable hw]

/-- The checks of a synchronized write of a known index (42_bus_master.md R268). -/
theorem checkSetVariablesSync_of_find {s : State} {index : Int} {d : Descriptor} (hd : s.cfg.regmap.findInt index = some d)
    (groups : List (Int × Value)) :
    checkSetVariablesSync s index groups
      = firstError [failWhen groups.isEmpty .empty, firstError (groups.map (checkGroup s.cfg d)),
          failWhen (decide (maxFrame < syncLen s.cfg.regmap index groups)) .frameTooLong, checkPort s] := by
  rw [checkSetVariablesSync, hd]
  rfl

/-- The first group that fails its check gives a synchronized write's error (42_bus_master.md R268). -/
theorem checkSetVariablesSync_of_failed_group {s : State} {index : Int} {d : Descriptor}
    (hd : s.cfg.regmap.findInt index = some d) {before : List (Int × Value)}
    (hbefore : ∀ q ∈ before, 0 ≤ q.1 ∧ q.1 ≤ 254 ∧ writable s.cfg index q.2) {q : Int × Value} {e : ErrorCode}
    (hq : checkGroup s.cfg d q = some e) (after : List (Int × Value)) :
    checkSetVariablesSync s index (before ++ q :: after) = some e := by
  rw [checkSetVariablesSync_of_find hd, failWhen_isEmpty_of_ne (by simp),
    firstError_map_of_failed (fun b hb => checkGroup_of_writable hd (hbefore b hb)) hq, firstError_cons_none,
    firstError_cons_some]

/-- What is left to check of a synchronized write of writable groups: the length of its frame and the port
(42_bus_master.md R268). -/
theorem checkSetVariablesSync_of_groups {s : State} {index : Int} {d : Descriptor}
    (hd : s.cfg.regmap.findInt index = some d) {groups : List (Int × Value)} (hne : groups ≠ [])
    (hgroups : ∀ q ∈ groups, 0 ≤ q.1 ∧ q.1 ≤ 254 ∧ writable s.cfg index q.2) :
    checkSetVariablesSync s index groups
      = firstError [failWhen (decide (maxFrame < syncLen s.cfg.regmap index groups)) .frameTooLong, checkPort s] := by
  rw [checkSetVariablesSync_of_find hd, failWhen_isEmpty_of_ne hne,
    firstError_map_of_passed fun q hq => checkGroup_of_writable hd (hgroups q hq), firstError_cons_none,
    firstError_cons_none]

/-- Settles O53, as O51, with a group in the place of a pair (`checkGroup`). -/
theorem syncChecksInOrder : Obligations.SyncChecksInOrder := by
  intro s index groups fails
  have hfails : ∀ {e}, checkSetVariablesSync s index groups = some e → fails e := fun hc => failsWith_of_hostCheck rfl hc
  refine ⟨fun hd => hfails ?_, fun d hd => ⟨fun hnil => hfails ?_, ?_, fun hne hgroups => ?_⟩⟩
  · rw [checkSetVariablesSync, hd]
  · rw [checkSetVariablesSync_of_find hd, hnil]
    rfl
  · rintro before g v after rfl hbefore
    have hgroup : ∀ {e}, checkGroup s.cfg d (g, v) = some e → fails e :=
      fun h => hfails (checkSetVariablesSync_of_failed_group hd hbefore h after)
    refine ⟨fun hr => hgroup ?_, fun hb => hgroup ?_, fun h0 h254 => ?_⟩
    · rw [checkGroup, checkId_of_out_of_range hr, firstError_cons_some]
    · rw [checkGroup, hb, checkId_broadcast, firstError_cons_some]
    · have hvalue : ∀ {e}, checkValue s.cfg d v = some e → fails e :=
        fun h => hgroup ((checkGroup_of_unicast h0 h254 v).trans h)
      exact ⟨fun hs => hvalue (checkValue_of_misshapen hs), fun hs hf => hvalue (checkValue_of_out_of_domain hs hf),
        fun hfit he hm => hvalue (checkValue_of_fits_read_only hfit he hm)⟩
  · have hleft := checkSetVariablesSync_of_groups hd hne hgroups
    refine ⟨fun hlong => hfails ?_, fun hlen hclosed => hfails ?_⟩
    · rw [hleft, failWhen_maxFrame_of_long hlong, firstError_cons_some]
    · rw [hleft, failWhen_maxFrame_of_le hlen, checkPort_of_closed hclosed, firstError_cons_none, firstError_cons_some]

end Sys2Proof.Machine
end

-- ==== The invariant at reset (70_reset_and_hazards.md) ====
section
/-! PROOFS. The reset state meets each part of the invariant: no cell is listed, the engine registers are at their reset values
and no event is in the trace. From these O27, the base case of what every step keeps (O58, O59, O60). -/

namespace Sys2Proof.Machine

/-- With no cell listed the table is in canonical form, so of a well-formed configuration nothing else is asked (10_state.md
R63). -/
theorem tableInv_resetWith {p : Params} (hp : p.wf = true) : TableInv (State.resetWith p) := by
  have hnone : ∀ c, c ∉ (State.resetWith p).dt := fun _ => List.not_mem_nil
  exact ⟨hp, rfl, fun c hc => absurd hc (hnone c), fun c hc => absurd hc (hnone c)⟩

/-- P_BAUD_INIT is a legal baud rate, the settle delay at reset is the one of that rate, and the other registers are zero,
empty, normal or idle (10_state.md R63). -/
theorem engineInv_resetWith {p : Params} (hp : p.wf = true) : EngineInv (State.resetWith p) := by
  obtain ⟨hmin, hmax⟩ := Params.baudInit_legal hp
  exact ⟨hmin, hmax, settleOf_eq p.baudInit, rfl, Nat.zero_le maxFrame, rfl, rfl⟩

/-- No frame is sent before the first operation, and the port is open (10_state.md R63). -/
theorem traceInv_resetWith (p : Params) : TraceInv (State.resetWith p) := ⟨rfl, rfl, rfl⟩

theorem inv_resetWith {p : Params} (hp : p.wf = true) : Inv (State.resetWith p) :=
  ⟨tableInv_resetWith hp, engineInv_resetWith hp, traceInv_resetWith p⟩

/-- TP, the configuration of `State.reset`, is well-formed (10_state.md R35). -/
theorem reset_cfg_wf : State.reset.cfg.wf = true := by decide

/-- Settles O27: `inv_resetWith` for every well-formed configuration, of which TP is one (`reset_cfg_wf`). -/
theorem resetMeetsTheInvariant : Obligations.ResetMeetsTheInvariant :=
  ⟨fun _ hp => ⟨inv_resetWith hp, rfl⟩, inv_resetWith reset_cfg_wf, rfl⟩

end Sys2Proof.Machine
end
